-- ==== Sys2Proof/Config.lean ====
section
/-! DEFINITION. Config: the implementation parameters of 00_scope.md rule R6, their defaults and bounds, and the
values the spec leaves open (constants with no body). -/

namespace Sys2Proof

/-- What an `ACK` sub-event does in `AwaitReadRestartAck`: the parameter `READ_ADDR_ACK` (rules R6 and R170,
decision D9). -/
inductive ReadAddrAck where
  | advance
  | fatal
  deriving DecidableEq, Repr

/-- The parameters of rule R6 that a model takes as arguments. `VOTE_MAX` and `BUS_ACTIVE_LEVEL` have the widths
of the register and the field that bound them (255 and 7). Rule R323: they never change. -/
structure Params where
  NBUS : Nat
  EVW : Nat
  NLEVELS : Nat
  VOTE_MAX : BitVec 8
  BUS_ACTIVE_LEVEL : BitVec 3
  NMAX : Nat
  READ_ADDR_ACK : ReadAddrAck
  deriving DecidableEq, Repr

/-- The defaults of rule R6. -/
def Params.default : Params where
  NBUS := 2
  EVW := 32
  NLEVELS := 5
  VOTE_MAX := 5
  BUS_ACTIVE_LEVEL := 2
  NMAX := 4
  READ_ADDR_ACK := .advance

/-- The bounds of rule R6: its "max the encoding allows" column, and `0 <= BUS_ACTIVE_LEVEL < NLEVELS`. -/
abbrev Params.Valid (c : Params) : Prop :=
  c.NBUS ≤ 4 ∧ c.EVW ≤ 32 ∧ c.NLEVELS ≤ 8 ∧ c.BUS_ACTIVE_LEVEL.toNat < c.NLEVELS ∧ c.NMAX ≤ 4

/-- The data a `BUFRD` of a busy instance answers: "U is unspecified: any 32-bit value" (rule R166, U1).
The argument numbers the draws (`State.drawn`). A FREE VALUE: no body, so nothing can be proved of it
(assumption log 4). -/
opaque Config.freeWord : Nat → BitVec 32

/-- The open parameter `SLEEP_MAP` (rule R6, D22): the power controller's map from an emitted level to a physical
power state, the physical states numbered. No rule of the block depends on it (assumption log 5). -/
opaque Config.sleepMap : BitVec 3 → Nat

end Sys2Proof
end

