-- ==== Sys2Proof/Word.lean ====
section
/-! DEFINITION. Word: the two sizes the block moves, the 32-bit command and response word (rule R100) and the byte
(rule R70). -/

namespace Sys2Proof

/-- A command word `CW[31:0]` or response data `data[31:0]` (rules R100 and R10). -/
abbrev Word := BitVec 32

/-- A data byte, the unit of all three data spaces (rule R70). -/
abbrev Byte := BitVec 8

end Sys2Proof
end

