-- ==== Sys2Proof/Syntax.lean ====
section
/-! DEFINITION. Syntax: the seventeen operations of 30_encoding.md rule R112, with the operands of rule R103. -/

namespace Sys2Proof

/-- `mode` (rule R22): "`mode` (Read | Write)". -/
inductive Mode where
  | write
  | read
  deriving DecidableEq, Repr

/-- The three sub-event kinds (rules R103 and R282): AddressAcknowledged, ByteAvailable,
StopConditionObserved. -/
inductive Kind where
  | ack
  | rx
  | stop
  deriving DecidableEq, Repr

/-- A sub-event as `SUBEV` and `IRQRAISE` carry it: only an `RX` comes with a byte (rule R103: the `byte` field
must be 0 when `kind` is not 1). -/
inductive SubEvent where
  | ack
  | rx (byte : Byte)
  | stop
  deriving DecidableEq, Repr

/-- The three input ports (rule R10). -/
inductive Port where
  | host
  | env
  | sev
  deriving DecidableEq, Repr

/-- One constructor per row of the opcode table (rule R112); each operand has its field's width (rule R103). -/
inductive Instr where
  | xstart (bus : BitVec 2) (mode : Mode) (paddr : BitVec 7) (raddr : Byte) (count : BitVec 3) (evid : BitVec 5)
  | xstat (bus : BitVec 2)
  | bufwr (bus : BitVec 2) (lane : BitVec 2) (byte : Byte)
  | bufrd (bus : BitVec 2)
  | evpost (evid : BitVec 5)
  | evclr (evid : BitVec 5)
  | evpend
  | emblk (level : BitVec 3)
  | emunblk (level : BitVec 3)
  | emcda
  | emsleep
  | subev (bus : BitVec 2) (ev : SubEvent)
  | irqraise (bus : BitVec 2) (ev : SubEvent)
  | irqen (bus : BitVec 2) (ien : BitVec 3)
  | irqstat (bus : BitVec 2)
  | fstat
  | wake
  deriving DecidableEq, Repr

end Sys2Proof
end

