-- ==== Sys2Proof/Machine/Operands.lean ====
section
/-! DEFINITION. Operands: the numeric codes of operands, operand assembly (rules R113 to R115), the legal ranges of
rule R103, the lanes of a buffer (rule R72), and the port each operation belongs to (rule R112). -/

namespace Sys2Proof

/-- Rule R22: 1 is Read, 0 is Write. -/
def Mode.code : Mode → BitVec 1
  | .write => 0
  | .read => 1

/-- Rule R103: 0 `ACK`, 1 `RX`, 2 `STOP`. -/
def Kind.code : Kind → BitVec 2
  | .ack => 0
  | .rx => 1
  | .stop => 2

/-- The kind of a sub-event. -/
def SubEvent.kind : SubEvent → Kind
  | .ack => .ack
  | .rx _ => .rx
  | .stop => .stop

/-- The `byte` field of a sub-event: zero unless the kind is `RX` (rule R103). -/
def SubEvent.byte : SubEvent → Byte
  | .rx byte => byte
  | .ack => 0
  | .stop => 0

/-- The sub-event the delivery step builds from a kind and the receive-data register (rule R244). -/
def SubEvent.ofKind (kind : Kind) (rxdata : Byte) : SubEvent :=
  match kind with
  | .ack => .ack
  | .rx => .rx rxdata
  | .stop => .stop

/-- The port rule R112 gives the operation. -/
def Instr.port : Instr → Port
  | .xstart _ _ _ _ _ _ => .host
  | .xstat _ => .host
  | .bufwr _ _ _ => .host
  | .bufrd _ => .host
  | .evpost _ => .host
  | .evclr _ => .host
  | .evpend => .host
  | .emblk _ => .host
  | .emunblk _ => .host
  | .emcda => .host
  | .emsleep => .host
  | .subev _ _ => .sev
  | .irqraise _ _ => .env
  | .irqen _ _ => .host
  | .irqstat _ => .host
  | .fstat => .host
  | .wake => .env

/-- Rule R113: `addrbyte(dir) = {paddr[6:0], dir}`; `dir` is 0 for the write direction, 1 for the read direction. -/
def addrByte (paddr : BitVec 7) (dir : BitVec 1) : Byte := paddr ++ dir

/-- Rule R114: the mask `1 << e` of an event id. -/
def eventMask (evid : BitVec 5) : Word := 1#32 <<< evid.toNat

/-- Rule R103: `bus` in `0..NBUS-1`. -/
def busInRange (c : Params) (bus : BitVec 2) : Bool := decide (bus.toNat < c.NBUS)

/-- Rule R103: `count` in `1..NMAX`. -/
def countInRange (c : Params) (count : BitVec 3) : Bool := decide (1 ≤ count.toNat ∧ count.toNat ≤ c.NMAX)

/-- Rule R103: `evid` in `0..EVW-1`. -/
def evidInRange (c : Params) (evid : BitVec 5) : Bool := decide (evid.toNat < c.EVW)

/-- Rule R103: `lane` in `0..NMAX-1`. -/
def laneInRange (c : Params) (lane : BitVec 2) : Bool := decide (lane.toNat < c.NMAX)

/-- Rule R103: `level` in `0..NLEVELS-1`. -/
def levelInRange (c : Params) (level : BitVec 3) : Bool := decide (level.toNat < c.NLEVELS)

/-- Rule R72: lane `k` of a buffer is `buf[8k+7:8k]`. -/
def laneOf (buf : Word) (k : Nat) : Byte := buf.extractLsb' (8 * k) 8

/-- Rule R72: replace lane `k`, leaving every other lane as it was. -/
def withLane (buf : Word) (k : Nat) (v : Byte) : Word :=
  (buf &&& ~~~(0xFF#32 <<< (8 * k))) ||| (v.setWidth 32 <<< (8 * k))

end Sys2Proof
end

