-- ==== Sys2Proof/Decode.lean ====
section
/-! DEFINITION. Decode: command words to operations, total on all 32-bit words (rules R100 to R103, R112, R128), and
the encoder written from the same formats. Every refusal of the decoder is `MALFORMED` on a port (rule R126). -/

namespace Sys2Proof

/-- Why a word is no operation: the five cases of rule R128. -/
inductive DecodeError where
  /-- `op` is 0x0 or 0xF. -/
  | reservedOpcode
  /-- `op = 0xD` with `fn = 3`, or `op = 0xE` with `fn >= 2`. -/
  | reservedFunction
  /-- A bit a format marks "rsv" is nonzero. -/
  | reservedBits
  /-- `kind = 3` in `SUBEV` or `IRQRAISE`. -/
  | reservedKind
  /-- A nonzero `byte` with `kind` not 1 (rule R103). -/
  | strayByte
  deriving DecidableEq, Repr

/-- The field of `w` whose lowest bit is `lo`, `n` bits wide (rule R12). -/
def field (w : Word) (lo n : Nat) : BitVec n := w.extractLsb' lo n

/-- Rule R22 read backwards. -/
def modeOfCode (code : BitVec 1) : Mode := if code = 1 then .read else .write

/-- The `kind` and `byte` fields of `SUBEV` and `IRQRAISE` (rule R103). -/
def decodeSubEvent (kind : BitVec 2) (byte : Byte) : Except DecodeError SubEvent :=
  if kind = 0 then (if byte = 0 then .ok .ack else .error .strayByte)
  else if kind = 1 then .ok (.rx byte)
  else if kind = 2 then (if byte = 0 then .ok .stop else .error .strayByte)
  else .error .reservedKind

/-- A format's reserved field must be zero (rules R101 and R128). -/
def requireZero {n : Nat} (reserved : BitVec n) (i : Except DecodeError Instr) : Except DecodeError Instr :=
  if reserved = 0 then i else .error .reservedBits

/-- Group `0xD`, format Q: `fn = CW[25:24]` (rules R102 and R103). -/
def decodeGroupD (w : Word) : Except DecodeError Instr :=
  let bus := field w 26 2
  match (field w 24 2).toNat with
  | 0 => requireZero (field w 8 14) ((decodeSubEvent (field w 22 2) (field w 0 8)).map (Instr.irqraise bus))
  | 1 => requireZero (field w 3 21) (.ok (.irqen bus (field w 0 3)))
  | 2 => requireZero (field w 0 24) (.ok (.irqstat bus))
  | _ => .error .reservedFunction

/-- Group `0xE`, format Y: `fn = CW[27:24]` (rules R102 and R103). -/
def decodeGroupE (w : Word) : Except DecodeError Instr :=
  match (field w 24 4).toNat with
  | 0 => requireZero (field w 0 24) (.ok .fstat)
  | 1 => requireZero (field w 0 24) (.ok .wake)
  | _ => .error .reservedFunction

/-- The operation a command word stands for: `op = CW[31:28]`, then the format's fields (rules R101, R102, R112). -/
def decode (w : Word) : Except DecodeError Instr :=
  let bus := field w 26 2
  match (field w 28 4).toNat with
  | 0x1 => requireZero (field w 5 2) (.ok (.xstart bus (modeOfCode (field w 25 1)) (field w 18 7) (field w 10 8)
      (field w 7 3) (field w 0 5)))
  | 0x2 => requireZero (field w 0 26) (.ok (.xstat bus))
  | 0x3 => requireZero (field w 8 16) (.ok (.bufwr bus (field w 24 2) (field w 0 8)))
  | 0x4 => requireZero (field w 0 26) (.ok (.bufrd bus))
  | 0x5 => requireZero (field w 5 23) (.ok (.evpost (field w 0 5)))
  | 0x6 => requireZero (field w 5 23) (.ok (.evclr (field w 0 5)))
  | 0x7 => requireZero (field w 0 28) (.ok .evpend)
  | 0x8 => requireZero (field w 3 25) (.ok (.emblk (field w 0 3)))
  | 0x9 => requireZero (field w 3 25) (.ok (.emunblk (field w 0 3)))
  | 0xA => requireZero (field w 0 28) (.ok .emcda)
  | 0xB => requireZero (field w 0 28) (.ok .emsleep)
  | 0xC => requireZero (field w 8 16) ((decodeSubEvent (field w 24 2) (field w 0 8)).map (Instr.subev bus))
  | 0xD => decodeGroupD w
  | 0xE => decodeGroupE w
  | _ => .error .reservedOpcode

/-- The command word of an operation, format by format (rule R102), the reserved fields zero. -/
def encode : Instr → Word
  | .xstart bus mode paddr raddr count evid => 0x1#4 ++ bus ++ mode.code ++ paddr ++ raddr ++ count ++ 0#2 ++ evid
  | .xstat bus => 0x2#4 ++ bus ++ 0#26
  | .bufwr bus lane byte => 0x3#4 ++ bus ++ lane ++ 0#16 ++ byte
  | .bufrd bus => 0x4#4 ++ bus ++ 0#26
  | .evpost evid => 0x5#4 ++ 0#23 ++ evid
  | .evclr evid => 0x6#4 ++ 0#23 ++ evid
  | .evpend => 0x7#4 ++ 0#28
  | .emblk level => 0x8#4 ++ 0#25 ++ level
  | .emunblk level => 0x9#4 ++ 0#25 ++ level
  | .emcda => 0xA#4 ++ 0#28
  | .emsleep => 0xB#4 ++ 0#28
  | .subev bus ev => 0xC#4 ++ bus ++ ev.kind.code ++ 0#16 ++ ev.byte
  | .irqraise bus ev => 0xD#4 ++ bus ++ 0#2 ++ ev.kind.code ++ 0#14 ++ ev.byte
  | .irqen bus ien => 0xD#4 ++ bus ++ 1#2 ++ 0#21 ++ ien
  | .irqstat bus => 0xD#4 ++ bus ++ 2#2 ++ 0#24
  | .fstat => 0xE#4 ++ 0#4 ++ 0#24
  | .wake => 0xE#4 ++ 1#4 ++ 0#24

/-- The command word whose low `nbits` bits are `w`'s and whose other bits are zero. -/
def tableWord (nbits w : Nat) : Word := BitVec.ofNat 32 (w % 2 ^ nbits)

/-- The operation the decoder reads from an opcode-table row's word: a command word is one 32-bit word, taken whole
(rule R100), so there is no byte order. -/
def decodeTableWord (nbits w : Nat) : Option Instr :=
  match decode (tableWord nbits w) with
  | .ok i => some i
  | .error _ => none

end Sys2Proof
end

