-- ==== Sys2Proof/Machine/State.lean ====
section
/-! DEFINITION. State: everything 10_state.md gives the block (rules R20 to R34), the parameters (rule R6), and the
model's own fields: the inputs still to come, the output streams of rule R35 and the count of free values drawn. -/

namespace Sys2Proof.Machine

/-- The seven states of a BTSM (rule R20); code 7 is never held, so it is no state here. -/
inductive BtsmState where
  | idle
  | awaitAddressAck
  | awaitRegisterAck
  | awaitReadRestartAck
  | writingData
  | receivingData
  | awaitStop
  deriving DecidableEq, Repr

/-- `PWR` (rule R34). -/
inductive Power where
  | awake
  | asleep (level : BitVec 3)
  deriving DecidableEq, Repr

/-- A bus action, one element of a `BUSOUT[b]` stream (rules R16 and R120). -/
inductive BusAction where
  | start
  | stop
  | ack
  | nack
  | txdata (byte : Byte)
  deriving DecidableEq, Repr

/-- The response to a command word (rule R11). -/
structure Response where
  ok : Bool
  data : Word
  deriving DecidableEq, Repr

/-- One thing the outside can make happen (rules R8, R9, R320): a command word presented on a port, the delivery step
of an instance's front-end, or a reset. -/
inductive Input where
  | word (port : Port) (cw : Word)
  | deliver (bus : BitVec 2)
  | reset
  deriving DecidableEq, Repr

/-- The reason codes of rule R126. -/
inductive Reason where
  | malformed
  | range
  | busy
  | halted
  | fatal
  deriving DecidableEq, Repr

/-- The three causes of a fatal error (rule R271), with what `FINFO` records of each. -/
inductive FatalError where
  | unexpectedSubevent (bus : BitVec 2) (state : BtsmState) (kind : Kind)
  | voteUnderflow (level : BitVec 3)
  | voteOverflow (level : BitVec 3)
  deriving DecidableEq, Repr

/-- A level of the output `HALTOUT`: "the level of `HALT`, with `FCODE` and `FINFO`" (rule R10). -/
structure HaltLevel where
  asserted : Bool
  code : BitVec 3
  info : Byte
  deriving DecidableEq, Repr

/-- `HALTOUT` deasserted (rule R320), with the code and the diagnostic of rule R271's row 0. -/
def HaltLevel.deasserted : HaltLevel := ⟨false, 0, 0⟩

/-- The registers of one bus instance (rules R20 to R30), under the spec's names. -/
structure BusInstance where
  /-- The sequencer's control state (rule R20). -/
  state : BtsmState
  /-- The gate: true when no transaction is in flight (rule R21). -/
  available : Bool
  /-- Latched direction (rule R22). -/
  mode : Mode
  /-- Latched peripheral address (rule R23). -/
  paddr : BitVec 7
  /-- Latched register address (rule R24). -/
  raddr : Byte
  /-- Data bytes not yet sent or received (rule R25). -/
  rem : BitVec 3
  /-- The data buffer, lane `k` in bits `8k+7:8k` (rule R26). -/
  buf : Word
  /-- Completion event id (rule R27). -/
  evid : BitVec 5
  /-- Pending flags: bit 0 `ACK`, bit 1 `RX`, bit 2 `STOP` (rule R28). -/
  IF : BitVec 3
  /-- Enables, same positions (rule R29). -/
  IEN : BitVec 3
  /-- Receive-data register (rule R30). -/
  RXDATA : Byte
  deriving DecidableEq, Repr

/-- The state of the block. `bus` and `VOTE` have room for the most instances and levels the encoding allows (rule
R6); entries at or above `NBUS` and `NLEVELS` do not exist, and no operation reaches them (`Inv`, in Safety). -/
structure State where
  /-- The parameters (rule R6); no step changes them (rule R323). The model's own field. -/
  params : Params
  /-- The bus instances (rules R20 to R30). -/
  bus : Vector BusInstance 4
  /-- Pending-event mask (rule R31). -/
  EV : Word
  /-- Vote counters (rule R32). -/
  VOTE : Vector (BitVec 8) 8
  /-- Fatal status (rule R33). -/
  HALT : Bool
  FCODE : BitVec 3
  FINFO : Byte
  /-- Power state of the Host (rule R34). -/
  PWR : Power
  /-- What the outside will do, in the one total order of rule R81. The model's own field (assumption log 2). -/
  inputs : List Input
  /-- The streams `BUSOUT[b]`, oldest first (rule R35). The model's own field: a trace, read by no operation. -/
  busOut : Vector (List BusAction) 4
  /-- The stream `SLEEPREQ`, oldest first (rule R35). The model's own field. -/
  sleepReq : List (BitVec 3)
  /-- The levels the output `HALTOUT` went to, oldest first (rules R35, R272, R320). The model's own field. -/
  haltOut : List HaltLevel
  /-- The responses given, with their ports, oldest first (rules R10 and R11). The model's own field. -/
  resp : List (Port × Response)
  /-- How many free values have been drawn. The model's own field (assumption log 4). -/
  drawn : Nat
  deriving DecidableEq, Repr

/-- Why a step stops the model. -/
inductive Fault where
  /-- A data byte is due on instance `bus` while its `rem` is not in `1..NMAX`: a state rule R38 rules out, to which
  no rule gives an effect. Raised by `SUBEV` and the delivery step in the data states, never from a state with
  `Inv`. Safe. -/
  | countOutOfRange (bus : BitVec 2)
  deriving DecidableEq, Repr

/-- Why an operation has no meaning in the model. -/
inductive Refusal where
  /-- The operation is not modelled. Raised by no arm: all seventeen have their meaning. Safe. -/
  | notModelled (mnemonic : String)
  deriving DecidableEq, Repr

/-- What an operation or handler came to, before it is answered: done, a fatal error (rule R272), or a state no rule
speaks of. -/
inductive Handled where
  | done (s : State)
  | fatal (e : FatalError)
  | broken (f : Fault)
  deriving DecidableEq, Repr

/-- A bus instance after reset (rule R40). -/
def BusInstance.reset : BusInstance where
  state := .idle
  available := true
  mode := .write
  paddr := 0
  raddr := 0
  rem := 0
  buf := 0
  evid := 0
  IF := 0b000
  IEN := 0b111
  RXDATA := 0

/-- The block after reset (rule R40), at the default parameters of rule R6, with no input to come and nothing
emitted. -/
def State.reset : State where
  params := Params.default
  bus := Vector.replicate 4 BusInstance.reset
  EV := 0
  VOTE := Vector.replicate 8 0
  HALT := false
  FCODE := 0
  FINFO := 0
  PWR := .awake
  inputs := []
  busOut := Vector.replicate 4 []
  sleepReq := []
  haltOut := []
  resp := []
  drawn := 0

end Sys2Proof.Machine
end

