-- ==== Sys2Proof/Machine/Flags.lean ====
section
/-! DEFINITION. Flags: the pending flags `IF` and enables `IEN` of an instance (rules R28, R29, R283) and the priority
among them (rule R245). -/

namespace Sys2Proof.Machine

/-- The bit of a kind in `IF` and `IEN`: bit `k` is kind `k` (rule R28). -/
def flagBit (kind : Kind) : BitVec 3 := 1#3 <<< kind.code.toNat

/-- `IF[kind] <- 1` (rule R241). -/
def BusInstance.setFlag (u : BusInstance) (kind : Kind) : BusInstance := { u with IF := u.IF ||| flagBit kind }

/-- `IF[kind] <- 0` (rule R244). -/
def BusInstance.clearFlag (u : BusInstance) (kind : Kind) : BusInstance := { u with IF := u.IF &&& ~~~(flagBit kind) }

/-- Pending and enabled: `IF & IEN` (rules R244 and R283). -/
def BusInstance.deliverable (u : BusInstance) : BitVec 3 := u.IF &&& u.IEN

/-- The least kind whose bit is 1: `ACK` before `RX` before `STOP` (rule R245). -/
def leastKind (flags : BitVec 3) : Option Kind :=
  if flags.getLsbD 0 then some .ack
  else if flags.getLsbD 1 then some .rx
  else if flags.getLsbD 2 then some .stop
  else none

end Sys2Proof.Machine
end

