-- ==== Sys2Proof/Machine/Responses.lean ====
section
/-! DEFINITION. Responses: the numbers the block shows the outside: state codes (rule R20), response words (rule
R116), reason codes (rule R126), fatal codes and `FINFO` (rule R271), bus-action words (rule R120). -/

namespace Sys2Proof.Machine

/-- Rule R20: the codes in the document's order. -/
def BtsmState.code : BtsmState → BitVec 3
  | .idle => 0
  | .awaitAddressAck => 1
  | .awaitRegisterAck => 2
  | .awaitReadRestartAck => 3
  | .writingData => 4
  | .receivingData => 5
  | .awaitStop => 6

/-- Rule R126: the reason codes, in `data[3:0]`. -/
def Reason.code : Reason → BitVec 4
  | .malformed => 1
  | .range => 2
  | .busy => 3
  | .halted => 4
  | .fatal => 5

/-- The data of a response with `ok = 0` (rule R126). -/
def Reason.word (r : Reason) : Word := r.code.setWidth 32

/-- `FCODE` of a fatal error (rule R271). -/
def FatalError.code : FatalError → BitVec 3
  | .unexpectedSubevent _ _ _ => 1
  | .voteUnderflow _ => 2
  | .voteOverflow _ => 3

/-- `FINFO` of a fatal error (rule R271). -/
def FatalError.info : FatalError → Byte
  | .unexpectedSubevent bus state kind => 0#1 ++ bus ++ state.code ++ kind.code
  | .voteUnderflow level => 0#5 ++ level
  | .voteOverflow level => 0#5 ++ level

/-- The data of `XSTAT` (rules R116 and R164). -/
def xstatWord (u : BusInstance) : Word :=
  0#24 ++ u.mode.code ++ u.rem ++ u.state.code ++ BitVec.ofBool u.available

/-- The data of `IRQSTAT` (rules R116 and R243). -/
def irqstatWord (u : BusInstance) : Word := 0#16 ++ u.RXDATA ++ 0#2 ++ u.IEN ++ u.IF

/-- The data of `FSTAT` (rules R116 and R246). -/
def fstatWord (s : State) : Word := 0#16 ++ s.FINFO ++ 0#4 ++ s.FCODE ++ BitVec.ofBool s.HALT

/-- The 11-bit word of a bus action: kind in `[10:8]`, data byte in `[7:0]` (rule R120). -/
def BusAction.word : BusAction → BitVec 11
  | .start => 0#3 ++ 0#8
  | .stop => 1#3 ++ 0#8
  | .ack => 2#3 ++ 0#8
  | .nack => 3#3 ++ 0#8
  | .txdata byte => 4#3 ++ byte

/-- What the output `HALTOUT` shows now (rule R10). -/
def State.haltLevel (s : State) : HaltLevel := ⟨s.HALT, s.FCODE, s.FINFO⟩

/-- The physical power state behind `SLEEPREQ` while asleep, through the open parameter `SLEEP_MAP` (rule R145, D22);
the block reads it nowhere. -/
def State.physicalSleep (s : State) : Option Nat :=
  match s.PWR with
  | .awake => none
  | .asleep level => some (Config.sleepMap level)

end Sys2Proof.Machine
end

