-- ==== Sys2Proof/Machine/Ops.lean ====
section
/-! DEFINITION. Ops: the named reads and writes of rule R13, the outputs, the common checks of rule R127, the fatal
error (rule R272), and reset (rule R320), which is the only way out of it. -/

namespace Sys2Proof.Machine

/-- `bus[b]`. -/
def State.inst (s : State) (b : BitVec 2) : BusInstance := s.bus[b.toNat]'(b.isLt)

/-- Write the registers of `bus[b]`. -/
def State.setInst (s : State) (b : BitVec 2) (u : BusInstance) : State :=
  { s with bus := s.bus.set b.toNat u b.isLt }

/-- `VOTE[l]`. -/
def State.vote (s : State) (l : BitVec 3) : BitVec 8 := s.VOTE[l.toNat]'(l.isLt)

/-- `VOTE[l] <- v`. -/
def State.setVote (s : State) (l : BitVec 3) (v : BitVec 8) : State :=
  { s with VOTE := s.VOTE.set l.toNat v l.isLt }

/-- The stream `BUSOUT[b]` so far. -/
def State.out (s : State) (b : BitVec 2) : List BusAction := s.busOut[b.toNat]'(b.isLt)

/-- `emit BUSOUT[b]` for each action in order (rule R13). -/
def State.emit (s : State) (b : BitVec 2) (actions : List BusAction) : State :=
  { s with busOut := s.busOut.set b.toNat (s.out b ++ actions) b.isLt }

/-- `emit SLEEPREQ <- l` (rule R13). -/
def State.emitSleep (s : State) (l : BitVec 3) : State := { s with sleepReq := s.sleepReq ++ [l] }

/-- `PWR <- Awake` (rules R167 and R247). -/
def State.wakeUp (s : State) : State := { s with PWR := .awake }

/-- `MemRead(b, k, 1)` (rule R72). -/
def State.memRead (s : State) (b : BitVec 2) (k : Nat) : Byte := laneOf (s.inst b).buf k

/-- `MemWrite(b, k, 1, v)` (rule R72). -/
def State.memWrite (s : State) (b : BitVec 2) (k : Nat) (v : Byte) : State :=
  s.setInst b { s.inst b with buf := withLane (s.inst b).buf k v }

/-- `respond(ok, data)` on a port (rules R11 and R13). -/
def State.respond (s : State) (p : Port) (ok : Bool) (data : Word) : State :=
  { s with resp := s.resp ++ [(p, ⟨ok, data⟩)] }

/-- `refuse(reason)`: answered, and no state changes (rule R125). -/
def State.refuse (s : State) (p : Port) (r : Reason) : State := s.respond p false r.word

/-- `HALTOUT` goes to a level (rules R35, R272, R320). -/
def State.emitHalt (s : State) (level : HaltLevel) : State := { s with haltOut := s.haltOut ++ [level] }

/-- `raise Fatal(code, info)` (rule R272): the block's one exception. Nothing is saved, control goes nowhere; the fatal
status is written, and `HALTOUT` asserted with it. -/
def State.raiseFatal (s : State) (e : FatalError) : State :=
  { s.emitHalt ⟨true, e.code, e.info⟩ with HALT := true, FCODE := e.code, FINFO := e.info }

/-- Reset (rules R320 to R323): every register as rule R40 says, the parameters as they were, nothing emitted on
`BUSOUT[b]` or `SLEEPREQ`, `HALTOUT` deasserted where it was asserted. It is the only way out of the halted state (rule R273: "There is no return operation"). -/
def State.applyReset (s : State) : State :=
  { State.reset with
    params := s.params, inputs := s.inputs, busOut := s.busOut, sleepReq := s.sleepReq,
    haltOut := if s.HALT then s.haltOut ++ [HaltLevel.deasserted] else s.haltOut,
    resp := s.resp, drawn := s.drawn }

/-- Checks 1 and 3 of rule R127, for a decoded operation on its own port: halted, then out of range, then `run`, the
operation's own pseudocode, which "runs after the common checks" (rules R140, R160, R220, R240). -/
def checked (p : Port) (inRange : Bool) (s : State) (run : Host.Outcome State Fault Refusal) :
    Host.Outcome State Fault Refusal :=
  if s.HALT then .next (s.refuse p .halted)
  else if inRange then run
  else .next (s.refuse p .range)

/-- Check 4 of rule R127: the instance must be available. -/
def unlessBusy (b : BitVec 2) (s : State) (run : Host.Outcome State Fault Refusal) :
    Host.Outcome State Fault Refusal :=
  if (s.inst b).available then run else .next (s.refuse .host .busy)

/-- An accepted operation: `respond(1, data)` (rule R127, check 5). -/
def accept (p : Port) (data : Word) (s : State) : Host.Outcome State Fault Refusal := .next (s.respond p true data)

/-- How an operation that can raise ends: `respond(1, 0)`, or the fatal error over the state `s0` it was raised in and
`respond(0, FATAL)` (rules R127 and R272). -/
def conclude (p : Port) (s0 : State) : Handled → Host.Outcome State Fault Refusal
  | .done t => .next (t.respond p true 0)
  | .fatal e => .next ((s0.raiseFatal e).refuse p .fatal)
  | .broken f => .fault f

/-- How the delivery step ends: as `conclude`, but there was no command word, so nothing is answered (rule R272: "if
the step was a command word"). -/
def concludeUnanswered (s0 : State) : Handled → Host.Outcome State Fault Refusal
  | .done t => .next t
  | .fatal e => .next (s0.raiseFatal e)
  | .broken f => .fault f

end Sys2Proof.Machine
end

