-- ==== Sys2Proof/Machine/Arbiter.lean ====
section
/-! DEFINITION. Arbiter: the Energy-Mode Arbiter of 40_energy_arbiter.md: `EMBLK`, `EMUNBLK`, `EMCDA`, `EMSLEEP`. -/

namespace Sys2Proof.Machine

/-- `block(l)` (rules R141 and R146): fatal if the incremented counter "would exceed" `VOTE_MAX`. -/
def block (l : BitVec 3) (s : State) : Handled :=
  if s.vote l < s.params.VOTE_MAX then .done (s.setVote l (s.vote l + 1)) else .fatal (.voteOverflow l)

/-- `unblock(l)` (rules R142 and R146): fatal if the counter is already zero. -/
def unblock (l : BitVec 3) (s : State) : Handled :=
  if s.vote l = 0 then .fatal (.voteUnderflow l) else .done (s.setVote l (s.vote l - 1))

/-- `cda()` (rule R144): the least level with a nonzero counter, or the deepest level if there is none. -/
def cda (s : State) : BitVec 3 :=
  match (List.range s.params.NLEVELS).find? (fun l => decide (0 < s.vote (BitVec.ofNat 3 l))) with
  | some l => BitVec.ofNat 3 l
  | none => BitVec.ofNat 3 (s.params.NLEVELS - 1)

/-- `EMBLK level` (rule R141). -/
def execEmblk (level : BitVec 3) (s : State) : Host.Outcome State Fault Refusal :=
  checked .host (levelInRange s.params level) s (conclude .host s (block level s))

/-- `EMUNBLK level` (rule R142). -/
def execEmunblk (level : BitVec 3) (s : State) : Host.Outcome State Fault Refusal :=
  checked .host (levelInRange s.params level) s (conclude .host s (unblock level s))

/-- `EMCDA` (rule R143). -/
def execEmcda (s : State) : Host.Outcome State Fault Refusal :=
  checked .host true s (accept .host ((cda s).setWidth 32) s)

/-- `EMSLEEP` (rule R145). -/
def execEmsleep (s : State) : Host.Outcome State Fault Refusal :=
  checked .host true s
    (accept .host ((cda s).setWidth 32) { s.emitSleep (cda s) with PWR := .asleep (cda s) })

end Sys2Proof.Machine
end

