-- ==== Sys2Proof/Machine/Btsm.lean ====
section
/-! DEFINITION. Btsm: the Bus Transaction State Machine of 41_bus_transaction.md, each operation as its template (rule
R160) says: the checks of rule R127, then the operation's pseudocode. The sub-event handlers (rules R168 to
R176), the transition table (rule R161), and `XSTART`, `XSTAT`, `BUFWR`, `BUFRD`, `SUBEV`. -/

namespace Sys2Proof.Machine

/-- `bus[b].state <- st`. -/
def State.goto (s : State) (b : BitVec 2) (st : BtsmState) : State := s.setInst b { s.inst b with state := st }

/-- `bus[b].rem <- r`. -/
def State.setRem (s : State) (b : BitVec 2) (r : BitVec 3) : State := s.setInst b { s.inst b with rem := r }

/-- `ACK` in `AwaitAddressAck` (rule R168). -/
def ackAddress (b : BitVec 2) (s : State) : State :=
  let u := s.inst b
  (s.emit b [.txdata u.raddr]).goto b (match u.mode with | .read => .awaitRegisterAck | .write => .writingData)

/-- `ACK` in `AwaitRegisterAck` (rule R169): the restart and the address byte, read direction. -/
def ackRegister (b : BitVec 2) (s : State) : State :=
  (s.emit b [.start, .txdata (addrByte (s.inst b).paddr 1)]).goto b .awaitReadRestartAck

/-- `ACK` in `AwaitReadRestartAck` (rule R170): by the parameter `READ_ADDR_ACK` it advances or is one more fatal
cell. -/
def ackReadRestart (b : BitVec 2) (s : State) : Handled :=
  match s.params.READ_ADDR_ACK with
  | .advance => .done (s.goto b .receivingData)
  | .fatal => .fatal (.unexpectedSubevent b .awaitReadRestartAck .ack)

/-- A data byte is due: `run` gets the decremented count, which is also the byte's lane (rules R73 and R179). Rule R38
says the count is in `1..NMAX`; a state where it is not is no state of the block. -/
def withDataByte (b : BitVec 2) (s : State) (run : BitVec 3 → State) : Handled :=
  let r := (s.inst b).rem
  if 1 ≤ r.toNat ∧ r.toNat ≤ s.params.NMAX then .done (run (r - 1)) else .broken (.countOutOfRange b)

/-- `ACK` in `WritingData` (rule R171), `r` the decremented count. -/
def sendByte (b : BitVec 2) (s : State) (r : BitVec 3) : State :=
  let t := (s.setRem b r).emit b [.txdata (s.memRead b r.toNat)]
  if r = 0 then (t.emit b [.stop]).goto b .awaitStop else t

/-- `receive_byte(b, v)` (rule R174), `r` the decremented count. -/
def receiveByte (b : BitVec 2) (v : Byte) (s : State) (r : BitVec 3) : State :=
  let t := (s.setRem b r).memWrite b r.toNat v
  if r = 0 then (t.emit b [.nack, .stop]).goto b .awaitStop else (t.emit b [.ack]).goto b .receivingData

/-- `STOP` in `AwaitStop` (rule R176). -/
def finishTransaction (b : BitVec 2) (s : State) : Handled :=
  match unblock s.params.BUS_ACTIVE_LEVEL s with
  | .done t =>
    let u := t.inst b
    .done { t.setInst b { u with available := true, state := .idle } with EV := t.EV ||| eventMask u.evid }
  | .fatal e => .fatal e
  | .broken f => .broken f

/-- A fatal cell of rule R161 (rule R175). -/
def unexpected (b : BitVec 2) (ev : SubEvent) (s : State) : Handled :=
  .fatal (.unexpectedSubevent b (s.inst b).state ev.kind)

/-- The transition table, all 21 cells (rule R161). -/
def handle (b : BitVec 2) (ev : SubEvent) (s : State) : Handled :=
  match (s.inst b).state, ev with
  | .idle, .ack => unexpected b .ack s
  | .idle, .rx v => unexpected b (.rx v) s
  | .idle, .stop => unexpected b .stop s
  | .awaitAddressAck, .ack => .done (ackAddress b s)
  | .awaitAddressAck, .rx v => unexpected b (.rx v) s
  | .awaitAddressAck, .stop => unexpected b .stop s
  | .awaitRegisterAck, .ack => .done (ackRegister b s)
  | .awaitRegisterAck, .rx v => unexpected b (.rx v) s
  | .awaitRegisterAck, .stop => unexpected b .stop s
  | .awaitReadRestartAck, .ack => ackReadRestart b s
  | .awaitReadRestartAck, .rx v => withDataByte b s (receiveByte b v s)
  | .awaitReadRestartAck, .stop => unexpected b .stop s
  | .writingData, .ack => withDataByte b s (sendByte b s)
  | .writingData, .rx v => unexpected b (.rx v) s
  | .writingData, .stop => unexpected b .stop s
  | .receivingData, .ack => unexpected b .ack s
  | .receivingData, .rx v => withDataByte b s (receiveByte b v s)
  | .receivingData, .stop => unexpected b .stop s
  | .awaitStop, .ack => unexpected b .ack s
  | .awaitStop, .rx v => unexpected b (.rx v) s
  | .awaitStop, .stop => finishTransaction b s

/-- The effects of an accepted `XSTART` (rule R163): the vote first, which may be fatal, then the latches, the gate, the
entry state, and the start with the address byte in the write direction. -/
def startTransaction (bus : BitVec 2) (mode : Mode) (paddr : BitVec 7) (raddr : Byte) (count : BitVec 3)
    (evid : BitVec 5) (s : State) : Handled :=
  match block s.params.BUS_ACTIVE_LEVEL s with
  | .done t =>
    .done ((t.setInst bus { t.inst bus with
      available := false, mode := mode, paddr := paddr, raddr := raddr, rem := count, evid := evid,
      state := .awaitAddressAck }).emit bus [.start, .txdata (addrByte paddr 0)])
  | .fatal e => .fatal e
  | .broken f => .broken f

/-- `XSTART` (rules R162 and R163). -/
def execXstart (bus : BitVec 2) (mode : Mode) (paddr : BitVec 7) (raddr : Byte) (count : BitVec 3)
    (evid : BitVec 5) (s : State) : Host.Outcome State Fault Refusal :=
  checked .host (busInRange s.params bus && countInRange s.params count && evidInRange s.params evid) s
    (unlessBusy bus s (conclude .host s (startTransaction bus mode paddr raddr count evid s)))

/-- `XSTAT b` (rule R164). -/
def execXstat (bus : BitVec 2) (s : State) : Host.Outcome State Fault Refusal :=
  checked .host (busInRange s.params bus) s (accept .host (xstatWord (s.inst bus)) s)

/-- `BUFWR b, lane, byte` (rule R165). -/
def execBufwr (bus : BitVec 2) (lane : BitVec 2) (byte : Byte) (s : State) : Host.Outcome State Fault Refusal :=
  checked .host (busInRange s.params bus && laneInRange s.params lane) s
    (unlessBusy bus s (accept .host 0 (s.memWrite bus lane.toNat byte)))

/-- `BUFRD b` (rule R166): the buffer, or, while a transaction is in flight, a free value (U1). -/
def execBufrd (bus : BitVec 2) (s : State) : Host.Outcome State Fault Refusal :=
  checked .host (busInRange s.params bus) s
    (if (s.inst bus).available then accept .host (s.inst bus).buf s
      else accept .host (Config.freeWord s.drawn) { s with drawn := s.drawn + 1 })

/-- What `SUBEV(b, kind, byte)` does after its checks, and what a delivery performs (rules R160, R167, R244): the Host
wakes, the cell of the transition table runs, and `finish` ends the step. The handler "is the whole effect of the `SUBEV`
step after the dispatch". -/
def dispatchSubEvent (finish : State → Handled → Host.Outcome State Fault Refusal) (b : BitVec 2) (ev : SubEvent)
    (s : State) : Host.Outcome State Fault Refusal :=
  finish s.wakeUp (handle b ev s.wakeUp)

/-- `SUBEV b, kind, byte` (rule R167). -/
def execSubev (bus : BitVec 2) (ev : SubEvent) (s : State) : Host.Outcome State Fault Refusal :=
  checked .sev (busInRange s.params bus) s (dispatchSubEvent (conclude .sev) bus ev s)

end Sys2Proof.Machine
end

