-- ==== Sys2Proof/Machine/Frontend.lean ====
section
/-! DEFINITION. Frontend: the sub-event front-end and the system operations of 43_frontend_system.md: `IRQRAISE`,
`IRQEN`, `IRQSTAT`, the delivery step, `FSTAT`, `WAKE`. -/

namespace Sys2Proof.Machine

/-- `IRQRAISE b, kind, byte` (rule R241). -/
def execIrqraise (bus : BitVec 2) (ev : SubEvent) (s : State) : Host.Outcome State Fault Refusal :=
  checked .env (busInRange s.params bus) s
    (accept .env 0 (s.setInst bus
      (match ev with
        | .ack => (s.inst bus).setFlag .ack
        | .rx byte => { (s.inst bus).setFlag .rx with RXDATA := byte }
        | .stop => (s.inst bus).setFlag .stop)))

/-- `IRQEN b, ien` (rule R242). -/
def execIrqen (bus : BitVec 2) (ien : BitVec 3) (s : State) : Host.Outcome State Fault Refusal :=
  checked .host (busInRange s.params bus) s
    (accept .host 0 (s.setInst bus { s.inst bus with IEN := ien }))

/-- `IRQSTAT b` (rule R243). -/
def execIrqstat (bus : BitVec 2) (s : State) : Host.Outcome State Fault Refusal :=
  checked .host (busInRange s.params bus) s (accept .host (irqstatWord (s.inst bus)) s)

/-- `FSTAT` (rule R246): the one operation accepted while halted. -/
def execFstat (s : State) : Host.Outcome State Fault Refusal := accept .host (fstatWord s) s

/-- `WAKE` (rule R247). -/
def execWake (s : State) : Host.Outcome State Fault Refusal :=
  checked .env true s (accept .env 0 s.wakeUp)

/-- The kind the delivery step of instance `b` would deliver, `none` when the step is not enabled (rules R244 and
R245); an instance at or above `NBUS` has no front-end. -/
def deliveryKind (b : BitVec 2) (s : State) : Option Kind :=
  if s.HALT then none
  else if busInRange s.params b then leastKind (s.inst b).deliverable
  else none

/-- The delivery step `D b` (rule R244): clear the flag and perform `SUBEV(b, k, v)` in the same step; a step that is
not enabled does nothing. -/
def deliver (b : BitVec 2) (s : State) : Host.Outcome State Fault Refusal :=
  match deliveryKind b s with
  | none => .next s
  | some kind =>
    dispatchSubEvent concludeUnanswered b (SubEvent.ofKind kind (s.inst b).RXDATA)
      (s.setInst b ((s.inst b).clearFlag kind))

end Sys2Proof.Machine
end

