-- ==== Sys2Proof/Machine/Scheduler.lean ====
section
/-! DEFINITION. Scheduler: the Event Scheduler of 42_event_scheduler.md: `EVPOST`, `EVCLR`, `EVPEND`. -/

namespace Sys2Proof.Machine

/-- `EVPOST evid` (rule R221). -/
def execEvpost (evid : BitVec 5) (s : State) : Host.Outcome State Fault Refusal :=
  checked .host (evidInRange s.params evid) s (accept .host 0 { s with EV := s.EV ||| eventMask evid })

/-- `EVCLR evid` (rule R222). -/
def execEvclr (evid : BitVec 5) (s : State) : Host.Outcome State Fault Refusal :=
  checked .host (evidInRange s.params evid) s (accept .host 0 { s with EV := s.EV &&& ~~~(eventMask evid) })

/-- `EVPEND` (rule R223). -/
def execEvpend (s : State) : Host.Outcome State Fault Refusal :=
  checked .host true s (accept .host s.EV s)

end Sys2Proof.Machine
end

