-- ==== Sys2Proof/Machine/Dispatch.lean ====
section
/-! DEFINITION. Dispatch: the meaning of each operation, one arm per constructor of Instr. -/

namespace Sys2Proof.Machine

def exec (i : Instr) (s : State) : Host.Outcome State Fault Refusal :=
  match i with
  | .xstart bus mode paddr raddr count evid => Sys2Proof.Machine.execXstart bus mode paddr raddr count evid s
  | .xstat bus => Sys2Proof.Machine.execXstat bus s
  | .bufwr bus lane byte => Sys2Proof.Machine.execBufwr bus lane byte s
  | .bufrd bus => Sys2Proof.Machine.execBufrd bus s
  | .evpost evid => Sys2Proof.Machine.execEvpost evid s
  | .evclr evid => Sys2Proof.Machine.execEvclr evid s
  | .evpend => Sys2Proof.Machine.execEvpend s
  | .emblk level => Sys2Proof.Machine.execEmblk level s
  | .emunblk level => Sys2Proof.Machine.execEmunblk level s
  | .emcda => Sys2Proof.Machine.execEmcda s
  | .emsleep => Sys2Proof.Machine.execEmsleep s
  | .subev bus ev => Sys2Proof.Machine.execSubev bus ev s
  | .irqraise bus ev => Sys2Proof.Machine.execIrqraise bus ev s
  | .irqen bus ien => Sys2Proof.Machine.execIrqen bus ien s
  | .irqstat bus => Sys2Proof.Machine.execIrqstat bus s
  | .fstat => Sys2Proof.Machine.execFstat s
  | .wake => Sys2Proof.Machine.execWake s

end Sys2Proof.Machine
end

