-- ==== Sys2Proof/Machine/Ports.lean ====
section
/-! DEFINITION. Ports: how a command word on a port is taken (rules R11, R127, R129), and which input is next (rules R9,
R81, R129). -/

namespace Sys2Proof.Machine

/-- Checks 1 and 2 of rule R127 and then the operation: a word that is no operation, or is on another port than its
own, is refused `HALTED` when halted and `MALFORMED` otherwise. -/
def takeWord (p : Port) (w : Word) (s : State) : Host.Outcome State Fault Refusal :=
  match decode w with
  | .ok i => if i.port = p then exec i s else .next (s.refuse p (if s.HALT then .halted else .malformed))
  | .error _ => .next (s.refuse p (if s.HALT then .halted else .malformed))

/-- One input: a word on a port, a delivery step, or a reset. -/
def takeInput (i : Input) (s : State) : Host.Outcome State Fault Refusal :=
  match i with
  | .word p w => takeWord p w s
  | .deliver b => deliver b s
  | .reset => .next s.applyReset

/-- While `PWR = Asleep(l)` the HOST port takes nothing: a HOST word is "simply never presented" (rules R129 and
R299). -/
def Input.held (asleep : Bool) : Input → Bool
  | .word .host _ => asleep
  | .word .env _ => false
  | .word .sev _ => false
  | .deliver _ => false
  | .reset => false

/-- The first input that is not held, and the inputs that remain, in their order. -/
def nextInput (asleep : Bool) : List Input → Option (Input × List Input)
  | [] => none
  | i :: rest =>
    if i.held asleep then (nextInput asleep rest).map (fun found => (found.1, i :: found.2)) else some (i, rest)

/-- Whether the Host is asleep (rule R34). -/
def State.isAsleep (s : State) : Bool :=
  match s.PWR with
  | .awake => false
  | .asleep _ => true

/-- One step: the next input is taken; with none to take the block waits (rule R41). -/
def advance (s : State) : Host.Outcome State Fault Refusal :=
  match nextInput s.isAsleep s.inputs with
  | none => .next s
  | some (i, rest) => takeInput i { s with inputs := rest }

/-- The port on which a word is an operation; HOST for a word that is none. -/
def wordPort (w : Word) : Port :=
  match decode w with
  | .ok i => i.port
  | .error _ => .host

/-- `s` with `w` as its next input, on the port it belongs to, and the Host awake if that is the HOST port. -/
def present (w : Word) (s : State) : State :=
  { s with
    inputs := .word (wordPort w) w :: s.inputs
    PWR := if wordPort w = .host then .awake else s.PWR }

end Sys2Proof.Machine
end

