-- ==== Sys2Proof/Machine/Step.lean ====
section
/-! DEFINITION. Step: one atomic step of the block (rule R9), and the state in which a given word is the next to be
taken. -/

namespace Sys2Proof.Machine

/-- One atomic step (rule R9): the next input of the total order (rule R81) is taken. -/
def step (s : State) : Host.Outcome State Fault Refusal := advance s

/-- `s` with the command word of `nbits` bits `w` presented next, on its own port. -/
def State.withFetchWord (s : State) (nbits w : Nat) : State := present (tableWord nbits w) s

end Sys2Proof.Machine
end

