-- ==== Sys2Proof/Machine/HostProgram.lean ====
section
/-! DEFINITION. HostProgram: software of the Host as far as rule R229 speaks of it: a program issues HOST words, each
chosen by the answers it has had; the drain pass and the main loop's pass are such programs. The block holds none of it
(rule R4). -/

namespace Sys2Proof.Machine

/-- A program of the Host: it ends, or it issues the word of an operation and goes on by the response. -/
inductive HostProgram where
  | done
  | call (i : Instr) (next : Response → HostProgram)

/-- One program after another. -/
def HostProgram.andThen : HostProgram → HostProgram → HostProgram
  | .done, q => q
  | .call i next, q => .call i (fun r => (next r).andThen q)

/-- The response given last. -/
def State.lastAnswer (s : State) : Response :=
  match s.resp.getLast? with
  | some found => found.2
  | none => ⟨false, 0⟩

/-- Inputs taken one after another (rule R81); a HOST word for a sleeping Host is not presented (rule R129). -/
def takeAll : List Input → State → Host.Outcome State Fault Refusal
  | [], s => .next s
  | i :: rest, s =>
    if i.held s.isAsleep then takeAll rest s
    else
      match takeInput i s with
      | .next t => takeAll rest t
      | .fault f => .fault f
      | .refused r => .refused r

/-- A run of a Host program. `meanwhile` says what happens before its first word, before its second, and so on: steps of
the other agents and of the Host's interrupt context (rules R81 and R226). A sleeping Host has no step (rule R299): the
run ends where it sleeps. -/
def HostProgram.run : HostProgram → List (List Input) → State → Host.Outcome State Fault Refusal
  | .done, _, s => .next s
  | .call i next, meanwhile, s =>
    match takeAll (meanwhile.headD []) s with
    | .next t =>
      if t.isAsleep then .next t
      else
        match takeWord .host (encode i) t with
        | .next u => (next u.lastAnswer).run meanwhile.tail u
        | .fault f => .fault f
        | .refused r => .refused r
    | .fault f => .fault f
    | .refused r => .refused r

/-- The loop of rule R229 over the event ids `ids`, in their order ("any fixed order is allowed", rule R225): of those
set in `snap`, the handler and then `EVCLR`. -/
def serviceEach (handler : BitVec 5 → HostProgram) (snap : Word) : List Nat → HostProgram
  | [] => .done
  | e :: ids =>
    if snap.getLsbD e then
      (handler (BitVec.ofNat 5 e)).andThen
        (.call (.evclr (BitVec.ofNat 5 e)) (fun _ => serviceEach handler snap ids))
    else serviceEach handler snap ids

/-- `H DRAIN` (rules R132 and R229): `snap` is the data of an `EVPEND`; then the loop in ascending order (D23). -/
def drain (c : Params) (handler : BitVec 5 → HostProgram) : HostProgram :=
  .call .evpend (fun r => serviceEach handler r.data (List.range c.EVW))

/-- One turn of the main loop (rule R229): `DRAIN`, then `EMSLEEP` if nothing is pending; "the test and the sleep are not
one step" (rule R344). DESIGN CHOICE (assumption log 18): the rules do not say what the test looks at, the pass's own
snapshot or a new one (note N23); here it is a second `EVPEND`, after the pass. -/
def mainLoopTurn (c : Params) (handler : BitVec 5 → HostProgram) : HostProgram :=
  (drain c handler).andThen
    (.call .evpend (fun r => if r.data = 0 then .call .emsleep (fun _ => .done) else .done))

end Sys2Proof.Machine
end

