-- ==== Sys2Proof/Machine/Trace.lean ====
section
/-! DEFINITION. Trace: the trace notation (rules R130 and R131), as inputs and as text, and the expansions of its
pseudo-operations (rule R132); `DRAIN` is in HostProgram. -/

namespace Sys2Proof.Machine

/-- The trace line of an operation: its word on its own port (rule R131). -/
def lineOf (i : Instr) : Input := .word i.port (encode i)

/-- A number of a trace line, decimal (rule R131: "numbers are decimal or `0x` hex"). -/
def num (n : Nat) : String := toString n

/-- The operands of a sub-event (rule R131). -/
def subEventText : SubEvent → String
  | .ack => "ACK"
  | .rx byte => "RX " ++ num byte.toNat
  | .stop => "STOP"

/-- Mnemonic and operands of an operation (rule R131). -/
def operationText : Instr → String
  | .xstart bus mode paddr raddr count evid =>
    "XSTART b" ++ num bus.toNat ++ (match mode with | .read => " rd" | .write => " wr") ++ " p=" ++ num paddr.toNat ++
      " r=" ++ num raddr.toNat ++ " n=" ++ num count.toNat ++ " e=" ++ num evid.toNat
  | .xstat bus => "XSTAT b" ++ num bus.toNat
  | .bufwr bus lane byte => "BUFWR b" ++ num bus.toNat ++ " l" ++ num lane.toNat ++ " " ++ num byte.toNat
  | .bufrd bus => "BUFRD b" ++ num bus.toNat
  | .evpost evid => "EVPOST " ++ num evid.toNat
  | .evclr evid => "EVCLR " ++ num evid.toNat
  | .evpend => "EVPEND"
  | .emblk level => "EMBLK " ++ num level.toNat
  | .emunblk level => "EMUNBLK " ++ num level.toNat
  | .emcda => "EMCDA"
  | .emsleep => "EMSLEEP"
  | .subev bus ev => "SUBEV b" ++ num bus.toNat ++ " " ++ subEventText ev
  | .irqraise bus ev => "IRQRAISE b" ++ num bus.toNat ++ " " ++ subEventText ev
  | .irqen bus ien => "IRQEN b" ++ num bus.toNat ++ " " ++ num ien.toNat
  | .irqstat bus => "IRQSTAT b" ++ num bus.toNat
  | .fstat => "FSTAT"
  | .wake => "WAKE"

/-- The letter of a port (rule R130). -/
def portText : Port → String
  | .host => "H"
  | .env => "E"
  | .sev => "S"

/-- The trace line of an input (rules R130 and R320); a word that is no operation is written as its number. -/
def lineText : Input → String
  | .word p w =>
    portText p ++ " " ++ (match decode w with | .ok i => operationText i | .error _ => num w.toNat)
  | .deliver bus => "D b" ++ num bus.toNat
  | .reset => "RESET"

/-- `H BUFSET b<n> <value> n=<N>`: lanes `N-1` down to `0` (rule R132). -/
def bufset (b : BitVec 2) (value : Word) (n : Nat) : List Instr :=
  (List.range n).reverse.map (fun k => .bufwr b (BitVec.ofNat 2 k) (laneOf value k))

/-- The sub-events of a read (rules R132 and R177): two `ACK`, the third if `third`, the bytes, `STOP`. `S XFER_RD` is
the form with the third. -/
def xferRd (b : BitVec 2) (third : Bool) (bytes : List Byte) : List Instr :=
  [.subev b .ack, .subev b .ack] ++ (if third then [.subev b .ack] else []) ++
    bytes.map (fun v => .subev b (.rx v)) ++ [.subev b .stop]

/-- `S XFER_WR b<n> n=<N>` (rules R132 and R177): `N+1` `ACK`, then `STOP`. -/
def xferWr (b : BitVec 2) (n : Nat) : List Instr := List.replicate (n + 1) (.subev b .ack) ++ [.subev b .stop]

/-- `H WAITAVAIL b<n>`: given the last answer, the next `XSTAT`, or none once `data[0] = 1` (rule R132). -/
def waitavailNext (b : BitVec 2) (last : Response) : Option Instr :=
  if last.data.getLsbD 0 then none else some (.xstat b)

end Sys2Proof.Machine
end

