-- ==== Sys2Proof/WellFormed.lean ====
section
/-! DEFINITION. WellFormed: an operation is well formed for a set of parameters when every operand is in the legal
range of 30_encoding.md rule R103 (check 3 of rule R127). Shape (reserved codes and bits) cannot be wrong in an
`Instr`: the decoder refuses it. -/

namespace Sys2Proof

/-- The range checks of rule R103, operation by operation. -/
def Instr.wellFormed (c : Params) : Instr → Bool
  | .xstart bus _ _ _ count evid => busInRange c bus && countInRange c count && evidInRange c evid
  | .xstat bus => busInRange c bus
  | .bufwr bus lane _ => busInRange c bus && laneInRange c lane
  | .bufrd bus => busInRange c bus
  | .evpost evid => evidInRange c evid
  | .evclr evid => evidInRange c evid
  | .evpend => true
  | .emblk level => levelInRange c level
  | .emunblk level => levelInRange c level
  | .emcda => true
  | .emsleep => true
  | .subev bus _ => busInRange c bus
  | .irqraise bus _ => busInRange c bus
  | .irqen bus _ => busInRange c bus
  | .irqstat bus => busInRange c bus
  | .fstat => true
  | .wake => true

end Sys2Proof
end

