-- ==== Sys2Proof/Safety.lean ====
section
/-! DEFINITION. Safety: the terms in which claims about the block are stated: the invariants of 10_state.md section 5
and their companions, the end of a run (rule R362), the vote balance (rules R39 and R147), sequences of operations. -/

namespace Sys2Proof.Machine

/-- Some state of an instance in which a data byte is still to come (the states rule R38 lists with `1 <= rem`). -/
abbrev BtsmState.DataToCome (st : BtsmState) : Prop :=
  st = .awaitAddressAck ∨ st = .awaitRegisterAck ∨ st = .awaitReadRestartAck ∨ st = .writingData ∨ st = .receivingData

/-- What holds of one instance between steps. -/
structure BusInstance.Inv (c : Params) (u : BusInstance) : Prop where
  /-- Rule R36. -/
  gate : u.available = true ↔ u.state = .idle
  /-- Rule R38, first sentence. -/
  count : u.state.DataToCome → 1 ≤ u.rem.toNat ∧ u.rem.toNat ≤ c.NMAX
  /-- Rule R38, second sentence. -/
  countStop : u.state = .awaitStop → u.rem = 0
  /-- The states of a read are reached only in Read mode, the state of a write only in Write mode (rules R168 to
  R170). -/
  readMode : u.state = .awaitRegisterAck ∨ u.state = .awaitReadRestartAck ∨ u.state = .receivingData → u.mode = .read
  writeMode : u.state = .writingData → u.mode = .write
  /-- The latched event id is one of the events (rules R27 and R162). -/
  evid : u.state ≠ .idle → u.evid.toNat < c.EVW
  /-- The buffer has `8*NMAX` bits (rule R26). -/
  buf : ∀ i, 8 * c.NMAX ≤ i → u.buf.getLsbD i = false

/-- What holds of the block after reset and after every step. -/
structure State.Inv (s : State) : Prop where
  /-- Rule R6. -/
  params : s.params.Valid
  /-- Each instance is as `BusInstance.Inv` says. -/
  insts : ∀ b, (s.inst b).Inv s.params
  /-- There are `NBUS` instances (rule R6). -/
  absent : ∀ b : BitVec 2, s.params.NBUS ≤ b.toNat → s.inst b = BusInstance.reset ∧ s.out b = []
  /-- Rule R32: values `0..VOTE_MAX`. -/
  votes : ∀ l, s.vote l ≤ s.params.VOTE_MAX
  /-- There are `NLEVELS` counters (rule R32). -/
  absentVotes : ∀ l : BitVec 3, s.params.NLEVELS ≤ l.toNat → s.vote l = 0
  /-- `EV` has `EVW` bits (rule R31). -/
  events : ∀ i, s.params.EVW ≤ i → s.EV.getLsbD i = false
  /-- Rule R34: `0 <= l < NLEVELS`. -/
  asleep : ∀ l, s.PWR = .asleep l → l.toNat < s.params.NLEVELS
  /-- Rule R271: no fatal error, no code. -/
  notHalted : s.HALT = false → s.FCODE = 0 ∧ s.FINFO = 0
  /-- Rule R271: codes 4 to 7 are never set, and a fatal error has a code. -/
  halted : s.HALT = true → s.FCODE = 1 ∨ s.FCODE = 2 ∨ s.FCODE = 3
  /-- A fatal error happens in a step of the awake Host or in a step that wakes it (rules R129 and R167). -/
  haltedAwake : s.HALT = true → s.PWR = .awake
  /-- Rules R10 and R35: the last level on the record of `HALTOUT`, deasserted before the first, is that of `HALT`, with
  `FCODE` and `FINFO`. -/
  haltOutput : s.haltOut.getLast?.getD HaltLevel.deasserted = s.haltLevel

/-- The seven cells of rule R161 that are transitions, six when `READ_ADDR_ACK` is `fatal` (rule R175). -/
def expects (r : ReadAddrAck) : BtsmState → Kind → Bool
  | .awaitAddressAck, .ack => true
  | .awaitRegisterAck, .ack => true
  | .awaitReadRestartAck, .ack => decide (r = .advance)
  | .awaitReadRestartAck, .rx => true
  | .writingData, .ack => true
  | .receivingData, .rx => true
  | .awaitStop, .stop => true
  | _, _ => false

/-- A row of the opcode table: its `match`, `mask` and port columns (rule R112). -/
structure OpcodeRow where
  bits : Word
  mask : Word
  port : Port
  deriving DecidableEq, Repr

/-- The opcode table (rule R112), written out apart from the decoder and from `Instr.port`. -/
def opcodeRows : List OpcodeRow :=
  [⟨0x10000000, 0xF0000060, .host⟩, ⟨0x20000000, 0xF3FFFFFF, .host⟩, ⟨0x30000000, 0xF0FFFF00, .host⟩,
   ⟨0x40000000, 0xF3FFFFFF, .host⟩, ⟨0x50000000, 0xFFFFFFE0, .host⟩, ⟨0x60000000, 0xFFFFFFE0, .host⟩,
   ⟨0x70000000, 0xFFFFFFFF, .host⟩, ⟨0x80000000, 0xFFFFFFF8, .host⟩, ⟨0x90000000, 0xFFFFFFF8, .host⟩,
   ⟨0xA0000000, 0xFFFFFFFF, .host⟩, ⟨0xB0000000, 0xFFFFFFFF, .host⟩, ⟨0xC0000000, 0xF0FFFF00, .sev⟩,
   ⟨0xD0000000, 0xF33FFF00, .env⟩, ⟨0xD1000000, 0xF3FFFFF8, .host⟩, ⟨0xD2000000, 0xF3FFFFFF, .host⟩,
   ⟨0xE0000000, 0xFFFFFFFF, .host⟩, ⟨0xE1000000, 0xFFFFFFFF, .env⟩]

/-- Rule R112: `w` selects a row, `(w & mask) == match`. -/
abbrev OpcodeRow.Selects (row : OpcodeRow) (w : Word) : Prop := w &&& row.mask = row.bits

/-- `w` selects some row (rule R112). -/
abbrev SelectsRow (w : Word) : Prop := ∃ row ∈ opcodeRows, row.Selects w

/-- `w` selects a row marked for port `p` (rules R112 and R129). -/
abbrev SelectsRowOn (p : Port) (w : Word) : Prop := ∃ row ∈ opcodeRows, row.Selects w ∧ row.port = p

/-- The code column of rule R20's table, written out apart from `BtsmState.code`, which the block uses. -/
def tableCode : BtsmState → BitVec 3
  | .idle => 0
  | .awaitAddressAck => 1
  | .awaitRegisterAck => 2
  | .awaitReadRestartAck => 3
  | .writingData => 4
  | .receivingData => 5
  | .awaitStop => 6

/-- The code of a kind and its bit in `IF` and `IEN` (rules R28 and R103), written out apart from `Kind.code`, which the
block uses. -/
def kindBit : Kind → Nat
  | .ack => 0
  | .rx => 1
  | .stop => 2

/-- The conditions rule R103 adds to a row: `kind` is not 3, and `byte` is zero when `kind` is not 1. -/
abbrev SubEventFieldsLegal (kind : BitVec 2) (byte : Byte) : Prop := kind ≠ 3 ∧ (kind ≠ 1 → byte = 0)

/-- The instance whose gate an operation needs open: check 4 of rule R127. -/
def gatedBy : Instr → Option (BitVec 2)
  | .xstart bus _ _ _ _ _ => some bus
  | .bufwr bus _ _ => some bus
  | _ => none

/-- How many transactions are in flight (rule R16). -/
def State.inFlight (s : State) : Nat :=
  ([0, 1, 2, 3].filter (fun b : BitVec 2 => !(s.inst b).available)).length

/-- Rule R39: `VOTE[BUS_ACTIVE_LEVEL]` is at least the number of transactions in flight. -/
def State.VotesCover (s : State) : Prop := s.inFlight ≤ (s.vote s.params.BUS_ACTIVE_LEVEL).toNat

/-- Some delivery step is enabled (rule R244). -/
def State.DeliveryEnabled (s : State) : Prop := ∃ b, (deliveryKind b s).isSome = true

/-- Rule R362 (a): not halted, every instance available, no delivery step enabled. -/
def State.Quiescent (s : State) : Prop :=
  s.HALT = false ∧ (∀ b : BitVec 2, b.toNat < s.params.NBUS → (s.inst b).available = true) ∧ ¬ s.DeliveryEnabled

/-- Rule R362 (b) to (d): the end state of a trace is final only if it is quiescent. -/
def State.Final (s : State) : Prop := s.inputs = [] ∧ s.Quiescent

/-- Operations one after another, stopping at the first that gives no next state. -/
def execAll : List Instr → State → Host.Outcome State Fault Refusal
  | [], s => .next s
  | i :: rest, s =>
    match exec i s with
    | .next t => execAll rest t
    | .fault f => .fault f
    | .refused r => .refused r

/-- The input the next step takes. -/
def State.taken (s : State) : Option Input := (nextInput s.isAsleep s.inputs).map (fun found => found.1)

/-- `t` can follow `s` without a reset: by the inputs to come, and by delivery steps, which a front-end takes of itself
while they are enabled (rule R244). -/
inductive State.Reaches : State → State → Prop
  | here {s : State} : s.Reaches s
  | input {s t u : State} : s.taken ≠ some .reset → step s = .next t → t.Reaches u → s.Reaches u
  | delivery {s t u : State} (b : BitVec 2) :
      (deliveryKind b s).isSome = true → deliver b s = .next t → t.Reaches u → s.Reaches u

/-- A sub-event of instance `b` can be the next step: a delivery, or a `SUBEV` word. -/
def State.FacesSubEvent (s : State) (b : BitVec 2) : Prop :=
  (deliveryKind b s).isSome = true ∨
  ∃ w ev, s.HALT = false ∧ s.taken = some (.word .sev w) ∧ decode w = .ok (.subev b ev)

/-- A sub-event of instance `b` is to come: some state that can follow has it as its next step. DEDUCED: the model's reading
of rule R362 (d) (assumption log 17). -/
def State.SubEventToCome (s : State) (b : BitVec 2) : Prop := ∃ t, s.Reaches t ∧ t.FacesSubEvent b

/-- Rules R362 (d) and R178: a transaction is in flight and no sub-event of its instance is to come, whatever else is (a
sleeping Host's words, reads, operations on other instances). -/
def State.Stuck (s : State) : Prop :=
  s.HALT = false ∧ ∃ b : BitVec 2, b.toNat < s.params.NBUS ∧ (s.inst b).available = false ∧ ¬ s.SubEventToCome b

end Sys2Proof.Machine
end

