-- ==== Sys2Proof/Certificates/Slice0/Obligations.lean ====
section
/-! DEFINITION. Obligations: the statements for the provers, in terms of the machine and of Safety. A frame is written
`t = { s with f := t.f, … }`: every field of the state but those named is unchanged; the named ones are then said field
by field. -/

open Sys2Proof Sys2Proof.Machine

/-! ### Command words (30_encoding.md) -/

/-- Decoding the word of an operation gives the operation back, every operand at every value of its field. -/
def Obligations.DecodeInvertsEncode : Prop := ∀ i : Instr, decode (encode i) = .ok i

/-- A word that decodes is the word of the operation it decodes to: each operation has one word (rule R100). -/
def Obligations.EncodeInvertsDecode : Prop := ∀ (w : Word) (i : Instr), decode w = .ok i → encode i = w

/-- Rules R112 and R103: exactly the words that select a row of the table, and whose sub-event fields are legal where
the row has them, are operations. -/
def Obligations.WordsThatDecodeAreTheTableRows : Prop :=
  ∀ w : Word, (∃ i, decode w = .ok i) ↔
    (SelectsRow w ∧
      (field w 28 4 = 0xC → SubEventFieldsLegal (field w 24 2) (field w 0 8)) ∧
      (field w 28 4 = 0xD → field w 24 2 = 0 → SubEventFieldsLegal (field w 22 2) (field w 0 8)))

/-- Rule R133 and vector V30-1: words written out from the formats decode to the operations they stand for; every row of
the table has at least one. -/
def Obligations.SampleWordsDecode : Prop :=
  decode 0x13544D01 = .ok (.xstart 0 .read 0x55 0x13 2 1) ∧
  decode 0x15542C83 = .ok (.xstart 1 .write 0x55 0x0B 1 3) ∧
  decode 0x13FFFE1F = .ok (.xstart 0 .read 0x7F 0xFF 4 31) ∧
  decode 0x20000000 = .ok (.xstat 0) ∧ decode 0x24000000 = .ok (.xstat 1) ∧
  decode 0x34000011 = .ok (.bufwr 1 0 0x11) ∧ decode 0x330000AA = .ok (.bufwr 0 3 0xAA) ∧
  decode 0x40000000 = .ok (.bufrd 0) ∧ decode 0x44000000 = .ok (.bufrd 1) ∧
  decode 0x5000001F = .ok (.evpost 31) ∧ decode 0x6000001F = .ok (.evclr 31) ∧ decode 0x70000000 = .ok .evpend ∧
  decode 0x80000003 = .ok (.emblk 3) ∧ decode 0x90000003 = .ok (.emunblk 3) ∧
  decode 0xA0000000 = .ok .emcda ∧ decode 0xB0000000 = .ok .emsleep ∧
  decode 0xC0000000 = .ok (.subev 0 .ack) ∧ decode 0xC100000A = .ok (.subev 0 (.rx 0x0A)) ∧
  decode 0xC2000000 = .ok (.subev 0 .stop) ∧ decode 0xC5000012 = .ok (.subev 1 (.rx 0x12)) ∧
  decode 0xD0000000 = .ok (.irqraise 0 .ack) ∧ decode 0xD040007F = .ok (.irqraise 0 (.rx 0x7F)) ∧
  decode 0xD0800000 = .ok (.irqraise 0 .stop) ∧ decode 0xD44000C3 = .ok (.irqraise 1 (.rx 0xC3)) ∧
  decode 0xD1000006 = .ok (.irqen 0 6) ∧ decode 0xD5000002 = .ok (.irqen 1 2) ∧
  decode 0xD2000000 = .ok (.irqstat 0) ∧ decode 0xD6000000 = .ok (.irqstat 1) ∧
  decode 0xE0000000 = .ok .fstat ∧ decode 0xE1000000 = .ok .wake

/-- Rule R113: the address byte has the 7-bit address in bits 7:1 and the direction in bit 0. -/
def Obligations.AddressByteHoldsAddressAndDirection : Prop :=
  ∀ (paddr : BitVec 7) (dir : BitVec 1),
    (addrByte paddr dir).extractLsb' 1 7 = paddr ∧ (addrByte paddr dir).extractLsb' 0 1 = dir

/-- Rule R120: the word of each bus action. -/
def Obligations.BusActionWordsAreThoseOfTheTable : Prop :=
  BusAction.start.word = 0x000 ∧ BusAction.stop.word = 0x100 ∧ BusAction.ack.word = 0x200 ∧
  BusAction.nack.word = 0x300 ∧ ∀ d : Byte, (BusAction.txdata d).word = 0x400 + d.setWidth 11

/-! ### Steps (00_scope.md section 5, 30_encoding.md section 7) -/

/-- A step runs the decoded operation: an input word, on its operation's port (the Host awake if that is HOST), is
executed on the state less that input. Nothing else is added around `exec`. -/
def Obligations.StepRunsTheDecodedOperation : Prop :=
  ∀ (s : State) (p : Port) (w : Word) (rest : List Input) (i : Instr),
    s.inputs = .word p w :: rest → (p = .host → s.PWR = .awake) → decode w = .ok i → i.port = p →
    step s = exec i { s with inputs := rest }

/-- Rules R129 and R299: while the Host is asleep its words are not presented: they keep their place, and the first
input of another agent is the one taken; with none, nothing happens. -/
def Obligations.HostWordsWaitWhileTheHostIsAsleep : Prop :=
  ∀ (s : State) (l : BitVec 3) (waiting : List Input), s.PWR = .asleep l →
    (∀ j ∈ waiting, ∃ w, j = .word .host w) →
    (s.inputs = waiting → step s = .next s) ∧
    (∀ (i : Input) (after : List Input), (∀ w, i ≠ .word .host w) → s.inputs = waiting ++ i :: after →
      step s = takeInput i { s with inputs := waiting ++ after })

/-- Rules R127 and R129: the order of the checks for every word on every port, and what each answers; which port a word
belongs to is the port column of rule R112's table. -/
def Obligations.WordsAreCheckedInOrder : Prop :=
  ∀ (s : State) (p : Port) (w : Word) (rest : List Input),
    s.inputs = .word p w :: rest → (p = .host → s.PWR = .awake) →
    (s.HALT = true → ¬ (p = .host ∧ w = 0xE0000000) →
      step s = .next { s with inputs := rest, resp := s.resp ++ [(p, ⟨false, 4⟩)] }) ∧
    (s.HALT = false → (∀ i, decode w ≠ .ok i) ∨ ¬ SelectsRowOn p w →
      step s = .next { s with inputs := rest, resp := s.resp ++ [(p, ⟨false, 1⟩)] }) ∧
    (∀ i, s.HALT = false → decode w = .ok i → SelectsRowOn p w → i.wellFormed s.params = false →
      step s = .next { s with inputs := rest, resp := s.resp ++ [(p, ⟨false, 2⟩)] }) ∧
    (∀ i b, s.HALT = false → decode w = .ok i → SelectsRowOn p w → i.wellFormed s.params = true →
      gatedBy i = some b → (s.inst b).available = false →
      step s = .next { s with inputs := rest, resp := s.resp ++ [(p, ⟨false, 3⟩)] }) ∧
    (∀ i t, (s.HALT = true → p = .host ∧ w = 0xE0000000) → decode w = .ok i → SelectsRowOn p w →
      i.wellFormed s.params = true → (∀ b, gatedBy i = some b → (s.inst b).available = true) → step s = .next t →
      (∃ d, t.resp = s.resp ++ [(p, ⟨true, d⟩)] ∧ t.HALT = s.HALT) ∨
      (t.resp = s.resp ++ [(p, ⟨false, 5⟩)] ∧ t.HALT = true))

/-! ### Reset (10_state.md R40, 70_reset_and_hazards.md R320) -/

/-- Rule R40: the value of every item after reset. -/
def Obligations.ResetGivesEveryItemItsValue : Prop :=
  (∀ b, State.reset.inst b =
    { available := true, state := .idle, mode := .write, paddr := 0, raddr := 0, rem := 0, evid := 0, buf := 0,
      IF := 0b000, IEN := 0b111, RXDATA := 0 }) ∧
  State.reset.EV = 0 ∧ (∀ l, State.reset.vote l = 0) ∧
  State.reset.HALT = false ∧ State.reset.FCODE = 0 ∧ State.reset.FINFO = 0 ∧ State.reset.PWR = .awake

/-- Rules R320 and R323: a reset at any time gives every item its reset value, leaves the parameters, emits nothing
on `BUSOUT[b]` or `SLEEPREQ`, deasserts `HALTOUT` where it was asserted, and answers nothing. -/
def Obligations.ResetStepRestoresEveryItem : Prop :=
  ∀ (s : State) (rest : List Input), s.inputs = .reset :: rest →
    ∃ t, step s = .next t ∧
      t = { s with inputs := rest, bus := t.bus, VOTE := t.VOTE, EV := 0, HALT := false, FCODE := 0, FINFO := 0,
                   PWR := .awake,
                   haltOut := if s.HALT then s.haltOut ++ [⟨false, 0, 0⟩] else s.haltOut } ∧
      (∀ b, t.inst b = BusInstance.reset) ∧ ∀ l, t.vote l = 0

/-! ### Invariants (10_state.md section 5) -/

/-- The invariant holds at reset. -/
def Obligations.InvHoldsAtReset : Prop := State.reset.Inv

/-- Every step keeps the invariant: the gate and the state agree (R36), the count is in range (R38), the counters, the
events, the codes and the power level are in theirs. -/
def Obligations.EveryStepKeepsInv : Prop := ∀ s t : State, s.Inv → step s = .next t → t.Inv

/-- From a state with the invariant no step faults or is refused a meaning: the block always goes on (rule R362: "The
block never stops by itself"). -/
def Obligations.EveryStepGoesOnFromInv : Prop := ∀ s : State, s.Inv → ∃ t, step s = .next t

/-- Rule R37: while a transaction is in flight no `XSTART` for its instance is accepted, and the latched registers do
not change. -/
def Obligations.TransactionInFlightKeepsItsDescriptor : Prop :=
  ∀ (s t : State) (b : BitVec 2), (s.inst b).available = false →
    (∀ mode paddr raddr count evid, exec (.xstart b mode paddr raddr count evid) s = .next t →
      ∃ d, t = { s with resp := s.resp ++ [(.host, ⟨false, d⟩)] }) ∧
    (step s = .next t → s.taken ≠ some .reset →
      (t.inst b).mode = (s.inst b).mode ∧ (t.inst b).paddr = (s.inst b).paddr ∧
      (t.inst b).raddr = (s.inst b).raddr ∧ (t.inst b).evid = (s.inst b).evid)

/-- Rule R39: a step that does not take the Host's release of a vote it does not hold keeps at least one vote on
`BUS_ACTIVE_LEVEL` for every transaction in flight. -/
def Obligations.VotesKeepCoveringTransactions : Prop :=
  ∀ s t : State, s.Inv → s.VotesCover →
    (s.taken = some (.word .host (encode (.emunblk s.params.BUS_ACTIVE_LEVEL))) →
      s.inFlight < (s.vote s.params.BUS_ACTIVE_LEVEL).toNat) →
    step s = .next t → t.VotesCover

/-- Rule R39, its consequence: with the votes covered, the level `cda()` is at most `BUS_ACTIVE_LEVEL` while a
transaction is in flight. -/
def Obligations.DeepestAllowedIsBoundedInFlight : Prop :=
  ∀ s : State, s.params.Valid → s.VotesCover → 0 < s.inFlight → cda s ≤ s.params.BUS_ACTIVE_LEVEL

/-- Every transaction in flight can be finished, within `NMAX + 4` sub-events, if the Environment supplies them (rules
R177 and R178). -/
def Obligations.EveryTransactionCanBeFinished : Prop :=
  ∀ (s : State) (b : BitVec 2), s.Inv → s.HALT = false → s.VotesCover → (s.inst b).available = false →
    ∃ (evs : List SubEvent) (t : State), evs.length ≤ s.params.NMAX + 4 ∧
      execAll (evs.map (fun ev => Instr.subev b ev)) s = .next t ∧
      t.HALT = false ∧ (t.inst b).available = true ∧ t.EV = s.EV ||| eventMask (s.inst b).evid

/-! ### Who may change what (10_state.md R42, 60_exceptions.md) -/

/-- Rule R42, the write columns, the delivery's among them: an item changes only under the operations the access table
names, only on the instance they name, `EV` and the counters by a sub-event only in `AwaitStop`, and the fatal status
only on the fatal path. -/
def Obligations.OnlyTheNamedOperationsWrite : Prop :=
  (∀ (i : Instr) (s t : State) (b : BitVec 2), exec i s = .next t →
    ((t.inst b).state ≠ (s.inst b).state ∨ (t.inst b).rem ≠ (s.inst b).rem →
      (∃ mode paddr raddr count evid, i = .xstart b mode paddr raddr count evid) ∨ ∃ ev, i = .subev b ev) ∧
    ((s.inst b).available = true → (t.inst b).available = false →
      ∃ mode paddr raddr count evid, i = .xstart b mode paddr raddr count evid) ∧
    ((s.inst b).available = false → (t.inst b).available = true → i = .subev b .stop) ∧
    ((t.inst b).mode ≠ (s.inst b).mode ∨ (t.inst b).paddr ≠ (s.inst b).paddr ∨
        (t.inst b).raddr ≠ (s.inst b).raddr ∨ (t.inst b).evid ≠ (s.inst b).evid →
      ∃ mode paddr raddr count evid, i = .xstart b mode paddr raddr count evid) ∧
    ((t.inst b).buf ≠ (s.inst b).buf → (∃ lane byte, i = .bufwr b lane byte) ∨ ∃ v, i = .subev b (.rx v)) ∧
    ((t.inst b).IF ≠ (s.inst b).IF ∨ (t.inst b).RXDATA ≠ (s.inst b).RXDATA → ∃ ev, i = .irqraise b ev) ∧
    ((t.inst b).IEN ≠ (s.inst b).IEN → ∃ ien, i = .irqen b ien) ∧
    (t.EV ≠ s.EV → (∃ e, i = .evpost e) ∨ (∃ e, i = .evclr e) ∨
      ∃ c, i = .subev c .stop ∧ (s.inst c).state = .awaitStop) ∧
    (∀ l, t.vote l ≠ s.vote l → i = .emblk l ∨ i = .emunblk l ∨ (l = s.params.BUS_ACTIVE_LEVEL ∧
      ((∃ c mode paddr raddr count evid, i = .xstart c mode paddr raddr count evid) ∨
        ∃ c, i = .subev c .stop ∧ (s.inst c).state = .awaitStop))) ∧
    (t.HALT ≠ s.HALT ∨ t.FCODE ≠ s.FCODE ∨ t.FINFO ≠ s.FINFO ∨ t.haltOut ≠ s.haltOut →
      s.HALT = false ∧ t.HALT = true ∧
      ((∃ c mode paddr raddr count evid, i = .xstart c mode paddr raddr count evid) ∨ (∃ c ev, i = .subev c ev) ∨
        (∃ l, i = .emblk l) ∨ ∃ l, i = .emunblk l)) ∧
    (t.PWR ≠ s.PWR → (∃ c ev, i = .subev c ev) ∨ i = .emsleep ∨ i = .wake) ∧
    (t.out b ≠ s.out b →
      (∃ mode paddr raddr count evid, i = .xstart b mode paddr raddr count evid) ∨ ∃ ev, i = .subev b ev) ∧
    (t.sleepReq ≠ s.sleepReq → i = .emsleep) ∧ t.params = s.params ∧ t.inputs = s.inputs) ∧
  ∀ (c : BitVec 2) (s t : State) (b : BitVec 2), deliver c s = .next t →
    (t.inst b ≠ s.inst b ∨ t.out b ≠ s.out b → b = c) ∧
    ((s.inst b).available = true → (t.inst b).available = true) ∧
    ((s.inst b).available = false → (t.inst b).available = true → (s.inst c).state = .awaitStop) ∧
    t.inst b = { s.inst b with
      state := (t.inst b).state, available := (t.inst b).available, rem := (t.inst b).rem, buf := (t.inst b).buf,
      IF := (t.inst b).IF } ∧
    (t.EV ≠ s.EV → (s.inst c).state = .awaitStop) ∧
    (∀ l, t.vote l ≠ s.vote l → l = s.params.BUS_ACTIVE_LEVEL ∧ (s.inst c).state = .awaitStop) ∧
    (t.HALT ≠ s.HALT ∨ t.FCODE ≠ s.FCODE ∨ t.FINFO ≠ s.FINFO ∨ t.haltOut ≠ s.haltOut →
      s.HALT = false ∧ t.HALT = true) ∧
    (t.PWR ≠ s.PWR → t.PWR = .awake) ∧
    t.sleepReq = s.sleepReq ∧ t.resp = s.resp ∧ t.drawn = s.drawn ∧ t.params = s.params ∧ t.inputs = s.inputs

/-- Rule R274: which operations can raise which fatal error; every other leaves the fatal status as it was. -/
def Obligations.OnlyTheListedOperationsRaise : Prop :=
  ∀ (i : Instr) (s t : State), s.HALT = false → exec i s = .next t →
    t.HALT = true ∨ t.FCODE ≠ s.FCODE ∨ t.FINFO ≠ s.FINFO →
    t.HALT = true ∧
    (((∃ l, i = .emblk l) ∧ t.FCODE = 3) ∨ ((∃ l, i = .emunblk l) ∧ t.FCODE = 2) ∨
     ((∃ b mode paddr raddr count evid, i = .xstart b mode paddr raddr count evid) ∧ t.FCODE = 3) ∨
     (∃ b ev, i = .subev b ev ∧ (t.FCODE = 1 ∨ (t.FCODE = 2 ∧ (s.inst b).state = .awaitStop ∧ ev = .stop))))

/-- Rule R273: once halted, no step but a reset changes anything: every word is answered `HALTED`, except `FSTAT`, which is
answered with the diagnostic; a delivery step, or a wait, is not answered. -/
def Obligations.HaltedBlockNeverChanges : Prop :=
  ∀ s t : State, s.HALT = true → step s = .next t → s.taken ≠ some .reset →
    t = { s with inputs := t.inputs, resp := t.resp } ∧
    (∀ p w, s.taken = some (.word p w) →
      t.resp = s.resp ++ [(p, if p = .host ∧ w = 0xE0000000 then ⟨true, fstatWord s⟩ else ⟨false, 4⟩)]) ∧
    ((∀ p w, s.taken ≠ some (.word p w)) → t.resp = s.resp)

/-- Rules R300 and R299: only an enabled delivery, a `SUBEV`, a `WAKE` or a reset wakes a sleeping Host. -/
def Obligations.OnlyDeliveryAndWakeWakeTheHost : Prop :=
  ∀ (s t : State) (l : BitVec 3), s.PWR = .asleep l → step s = .next t → t.PWR = .awake →
    s.taken = some .reset ∨ (∃ b, s.taken = some (.deliver b) ∧ (deliveryKind b s).isSome = true) ∨
    s.taken = some (.word .env 0xE1000000) ∨
    ∃ w b ev, s.taken = some (.word .sev w) ∧ decode w = .ok (.subev b ev)

/-! ### Energy-Mode Arbiter (40_energy_arbiter.md) -/

/-- Rule R141: below `VOTE_MAX`, `EMBLK` adds one to its counter and changes nothing else. -/
def Obligations.EmblkAddsOneVote : Prop :=
  ∀ (s : State) (l : BitVec 3), s.HALT = false → l.toNat < s.params.NLEVELS → s.vote l < s.params.VOTE_MAX →
    ∃ t, exec (.emblk l) s = .next t ∧
      t = { s with VOTE := t.VOTE, resp := s.resp ++ [(.host, ⟨true, 0⟩)] } ∧
      (t.vote l).toNat = (s.vote l).toNat + 1 ∧ ∀ m, m ≠ l → t.vote m = s.vote m

/-- Rule R141: at `VOTE_MAX`, `EMBLK` is fatal error 3, asserted on `HALTOUT`, and the counter keeps its value. -/
def Obligations.EmblkAtTheBoundIsFatal : Prop :=
  ∀ (s : State) (l : BitVec 3), s.HALT = false → l.toNat < s.params.NLEVELS → s.vote l = s.params.VOTE_MAX →
    exec (.emblk l) s = .next { s with HALT := true, FCODE := 3, FINFO := l.setWidth 8,
                                       haltOut := s.haltOut ++ [⟨true, 3, l.setWidth 8⟩],
                                       resp := s.resp ++ [(.host, ⟨false, 5⟩)] }

/-- Rule R142: above zero, `EMUNBLK` takes one from its counter and changes nothing else. -/
def Obligations.EmunblkTakesOneVote : Prop :=
  ∀ (s : State) (l : BitVec 3), s.HALT = false → l.toNat < s.params.NLEVELS → s.vote l ≠ 0 →
    ∃ t, exec (.emunblk l) s = .next t ∧
      t = { s with VOTE := t.VOTE, resp := s.resp ++ [(.host, ⟨true, 0⟩)] } ∧
      (t.vote l).toNat + 1 = (s.vote l).toNat ∧ ∀ m, m ≠ l → t.vote m = s.vote m

/-- Rule R142: at zero, `EMUNBLK` is fatal error 2, asserted on `HALTOUT`, and the counter keeps its value. -/
def Obligations.EmunblkAtZeroIsFatal : Prop :=
  ∀ (s : State) (l : BitVec 3), s.HALT = false → l.toNat < s.params.NLEVELS → s.vote l = 0 →
    exec (.emunblk l) s = .next { s with HALT := true, FCODE := 2, FINFO := l.setWidth 8,
                                         haltOut := s.haltOut ++ [⟨true, 2, l.setWidth 8⟩],
                                         resp := s.resp ++ [(.host, ⟨false, 5⟩)] }

/-- Rule R144: `cda()` is the least level with a nonzero counter, or `NLEVELS-1` when every counter is zero. -/
def Obligations.CdaIsTheLeastLevelHeld : Prop :=
  ∀ s : State, s.params.Valid →
    ((∃ l : BitVec 3, l.toNat < s.params.NLEVELS ∧ 0 < s.vote l) →
      (cda s).toNat < s.params.NLEVELS ∧ 0 < s.vote (cda s) ∧ ∀ m, m < cda s → s.vote m = 0) ∧
    ((∀ l : BitVec 3, l.toNat < s.params.NLEVELS → s.vote l = 0) → (cda s).toNat = s.params.NLEVELS - 1)

/-- Rule R143: `EMCDA` answers `cda()` and changes nothing. -/
def Obligations.EmcdaAnswersTheDeepestAllowed : Prop :=
  ∀ s : State, s.HALT = false →
    exec .emcda s = .next { s with resp := s.resp ++ [(.host, ⟨true, (cda s).setWidth 32⟩)] }

/-- Rule R145: `EMSLEEP` emits `cda()` on `SLEEPREQ`, puts the Host to sleep at it and answers it, whatever `EV` and the
counters hold. -/
def Obligations.EmsleepEntersTheDeepestAllowed : Prop :=
  ∀ s : State, s.HALT = false →
    exec .emsleep s = .next { s with
      PWR := .asleep (cda s), sleepReq := s.sleepReq ++ [cda s],
      resp := s.resp ++ [(.host, ⟨true, (cda s).setWidth 32⟩)] }

/-- Rule R147: calls of `block` and `unblock` that are balanced level by level, none of them fatal, leave every counter
and `cda()` as they were. -/
def Obligations.BalancedCallsRestoreTheVotes : Prop :=
  ∀ (ops : List Instr) (s t : State), s.params.Valid → s.HALT = false →
    (∀ i ∈ ops, ∃ l, i = .emblk l ∨ i = .emunblk l) →
    (∀ l : BitVec 3, ops.count (.emblk l) = ops.count (.emunblk l)) →
    execAll ops s = .next t → t.HALT = false →
    (∀ l, t.vote l = s.vote l) ∧ cda t = cda s

/-! ### Bus Transaction State Machine, Host operations (41_bus_transaction.md) -/

/-- Rule R163: an accepted `XSTART` takes a vote, closes the gate, latches the descriptor, enters `AwaitAddressAck`, and
emits the start and the address byte in the write direction; the buffer and everything else stay. -/
def Obligations.XstartBeginsATransaction : Prop :=
  ∀ (s : State) (b : BitVec 2) (mode : Mode) (paddr : BitVec 7) (raddr : Byte) (count : BitVec 3) (evid : BitVec 5),
    s.HALT = false → b.toNat < s.params.NBUS → 1 ≤ count.toNat → count.toNat ≤ s.params.NMAX →
    evid.toNat < s.params.EVW → (s.inst b).available = true →
    s.vote s.params.BUS_ACTIVE_LEVEL < s.params.VOTE_MAX →
    ∃ t, exec (.xstart b mode paddr raddr count evid) s = .next t ∧
      t = { s with bus := t.bus, VOTE := t.VOTE, busOut := t.busOut, resp := s.resp ++ [(.host, ⟨true, 0⟩)] } ∧
      t.inst b = { s.inst b with
        available := false, mode := mode, paddr := paddr, raddr := raddr, rem := count, evid := evid,
        state := .awaitAddressAck } ∧
      (∀ c, c ≠ b → t.inst c = s.inst c) ∧
      (t.vote s.params.BUS_ACTIVE_LEVEL).toNat = (s.vote s.params.BUS_ACTIVE_LEVEL).toNat + 1 ∧
      (∀ l, l ≠ s.params.BUS_ACTIVE_LEVEL → t.vote l = s.vote l) ∧
      t.out b = s.out b ++ [.start, .txdata (paddr ++ 0#1)] ∧ ∀ c, c ≠ b → t.out c = s.out c

/-- Rule R163: with the `BUS_ACTIVE_LEVEL` counter at `VOTE_MAX`, `XSTART` is fatal error 3 and nothing else of it
happens. -/
def Obligations.XstartAtTheVoteBoundIsFatal : Prop :=
  ∀ (s : State) (b : BitVec 2) (mode : Mode) (paddr : BitVec 7) (raddr : Byte) (count : BitVec 3) (evid : BitVec 5),
    s.HALT = false → (Instr.xstart b mode paddr raddr count evid).wellFormed s.params = true →
    (s.inst b).available = true → s.vote s.params.BUS_ACTIVE_LEVEL = s.params.VOTE_MAX →
    exec (.xstart b mode paddr raddr count evid) s = .next { s with
      HALT := true, FCODE := 3, FINFO := s.params.BUS_ACTIVE_LEVEL.setWidth 8,
      haltOut := s.haltOut ++ [⟨true, 3, s.params.BUS_ACTIVE_LEVEL.setWidth 8⟩],
      resp := s.resp ++ [(.host, ⟨false, 5⟩)] }

/-- Rules R164 and R20: `XSTAT` answers the gate, the state by its code in rule R20's table, the count and the mode (1 is
Read) in their bits, and changes nothing. -/
def Obligations.XstatShowsTheInstance : Prop :=
  ∀ (s : State) (b : BitVec 2), s.HALT = false → b.toNat < s.params.NBUS →
    ∃ d : Word, exec (.xstat b) s = .next { s with resp := s.resp ++ [(.host, ⟨true, d⟩)] } ∧
      d.getLsbD 0 = (s.inst b).available ∧ d.extractLsb' 1 3 = tableCode (s.inst b).state ∧
      d.extractLsb' 4 3 = (s.inst b).rem ∧ d.getLsbD 7 = decide ((s.inst b).mode = .read) ∧ d.extractLsb' 8 24 = 0

/-- Rule R165: `BUFWR` to an available instance writes its lane and leaves every other lane, register and instance as
it was. -/
def Obligations.BufwrWritesOneLane : Prop :=
  ∀ (s : State) (b : BitVec 2) (lane : BitVec 2) (byte : Byte),
    s.HALT = false → b.toNat < s.params.NBUS → lane.toNat < s.params.NMAX → (s.inst b).available = true →
    ∃ t, exec (.bufwr b lane byte) s = .next t ∧
      t = { s with bus := t.bus, resp := s.resp ++ [(.host, ⟨true, 0⟩)] } ∧
      t.inst b = { s.inst b with buf := (t.inst b).buf } ∧ (∀ c, c ≠ b → t.inst c = s.inst c) ∧
      t.memRead b lane.toNat = byte ∧ ∀ k, k < 4 → k ≠ lane.toNat → t.memRead b k = s.memRead b k

/-- Rule R166: `BUFRD` of an available instance answers its buffer, lane `k` at bits `8k+7:8k`, and changes nothing. -/
def Obligations.BufrdAnswersTheBuffer : Prop :=
  ∀ (s : State) (b : BitVec 2), s.HALT = false → b.toNat < s.params.NBUS → (s.inst b).available = true →
    ∃ d : Word, exec (.bufrd b) s = .next { s with resp := s.resp ++ [(.host, ⟨true, d⟩)] } ∧
      ∀ k, k < 4 → d.extractLsb' (8 * k) 8 = s.memRead b k

/-- Rule R166: `BUFRD` of a busy instance is accepted and answers some word, of which nothing is said; only the count of
free values drawn moves. -/
def Obligations.BufrdOfABusyInstanceAnswersSomeWord : Prop :=
  ∀ (s : State) (b : BitVec 2), s.HALT = false → b.toNat < s.params.NBUS → (s.inst b).available = false →
    ∃ d : Word, exec (.bufrd b) s = .next { s with
      resp := s.resp ++ [(.host, ⟨true, d⟩)], drawn := s.drawn + 1 }

/-! ### Bus Transaction State Machine, sub-events (41_bus_transaction.md section 4) -/

/-- Rule R168: `ACK` in `AwaitAddressAck` sends the register address and goes on by the mode. -/
def Obligations.AddressAckSendsTheRegisterAddress : Prop :=
  ∀ (s : State) (b : BitVec 2), s.HALT = false → b.toNat < s.params.NBUS → (s.inst b).state = .awaitAddressAck →
    ∃ t, exec (.subev b .ack) s = .next t ∧
      t = { s with PWR := .awake, bus := t.bus, busOut := t.busOut, resp := s.resp ++ [(.sev, ⟨true, 0⟩)] } ∧
      t.inst b = { s.inst b with
        state := if (s.inst b).mode = .read then .awaitRegisterAck else .writingData } ∧
      (∀ c, c ≠ b → t.inst c = s.inst c) ∧
      t.out b = s.out b ++ [.txdata (s.inst b).raddr] ∧ ∀ c, c ≠ b → t.out c = s.out c

/-- Rule R169: `ACK` in `AwaitRegisterAck` restarts and readdresses the peripheral in the read direction. -/
def Obligations.RegisterAckRestartsInReadDirection : Prop :=
  ∀ (s : State) (b : BitVec 2), s.HALT = false → b.toNat < s.params.NBUS → (s.inst b).state = .awaitRegisterAck →
    ∃ t, exec (.subev b .ack) s = .next t ∧
      t = { s with PWR := .awake, bus := t.bus, busOut := t.busOut, resp := s.resp ++ [(.sev, ⟨true, 0⟩)] } ∧
      t.inst b = { s.inst b with state := .awaitReadRestartAck } ∧ (∀ c, c ≠ b → t.inst c = s.inst c) ∧
      t.out b = s.out b ++ [.start, .txdata ((s.inst b).paddr ++ 1#1)] ∧ ∀ c, c ≠ b → t.out c = s.out c

/-- Rule R170: `ACK` in `AwaitReadRestartAck` advances to `ReceivingData` with no bus action, when `READ_ADDR_ACK` is
`advance`. -/
def Obligations.RestartAckAdvancesToReceiving : Prop :=
  ∀ (s : State) (b : BitVec 2), s.HALT = false → b.toNat < s.params.NBUS →
    (s.inst b).state = .awaitReadRestartAck → s.params.READ_ADDR_ACK = .advance →
    ∃ t, exec (.subev b .ack) s = .next t ∧
      t = { s with PWR := .awake, bus := t.bus, resp := s.resp ++ [(.sev, ⟨true, 0⟩)] } ∧
      t.inst b = { s.inst b with state := .receivingData } ∧ ∀ c, c ≠ b → t.inst c = s.inst c

/-- Rule R171: `ACK` in `WritingData` counts down, sends the lane of the new count, and with the last byte commands the
stop; the buffer is read, not written. -/
def Obligations.DataAckSendsTheNextByte : Prop :=
  ∀ (s : State) (b : BitVec 2), s.HALT = false → b.toNat < s.params.NBUS → (s.inst b).state = .writingData →
    1 ≤ (s.inst b).rem.toNat → (s.inst b).rem.toNat ≤ s.params.NMAX →
    ∃ t, exec (.subev b .ack) s = .next t ∧
      t = { s with PWR := .awake, bus := t.bus, busOut := t.busOut, resp := s.resp ++ [(.sev, ⟨true, 0⟩)] } ∧
      (t.inst b).rem.toNat + 1 = (s.inst b).rem.toNat ∧
      t.inst b = { s.inst b with
        rem := (t.inst b).rem, state := if (s.inst b).rem = 1 then .awaitStop else .writingData } ∧
      (∀ c, c ≠ b → t.inst c = s.inst c) ∧
      t.out b = s.out b ++ [.txdata (s.memRead b ((s.inst b).rem.toNat - 1))] ++
        (if (s.inst b).rem = 1 then [.stop] else []) ∧
      ∀ c, c ≠ b → t.out c = s.out c

/-- Rules R172 to R174: a received byte is stored in the lane of the decremented count and acknowledged, the last with a
negative-acknowledge and the stop; every other lane stays. -/
def Obligations.ReceivedByteIsStoredAndAnswered : Prop :=
  ∀ (s : State) (b : BitVec 2) (v : Byte), s.params.Valid → s.HALT = false → b.toNat < s.params.NBUS →
    (s.inst b).state = .awaitReadRestartAck ∨ (s.inst b).state = .receivingData →
    1 ≤ (s.inst b).rem.toNat → (s.inst b).rem.toNat ≤ s.params.NMAX →
    ∃ t, exec (.subev b (.rx v)) s = .next t ∧
      t = { s with PWR := .awake, bus := t.bus, busOut := t.busOut, resp := s.resp ++ [(.sev, ⟨true, 0⟩)] } ∧
      (t.inst b).rem.toNat + 1 = (s.inst b).rem.toNat ∧
      t.inst b = { s.inst b with
        rem := (t.inst b).rem, buf := (t.inst b).buf,
        state := if (s.inst b).rem = 1 then .awaitStop else .receivingData } ∧
      t.memRead b ((s.inst b).rem.toNat - 1) = v ∧
      (∀ k, k < 4 → k ≠ (s.inst b).rem.toNat - 1 → t.memRead b k = s.memRead b k) ∧
      (∀ c, c ≠ b → t.inst c = s.inst c) ∧
      t.out b = s.out b ++ (if (s.inst b).rem = 1 then [.nack, .stop] else [.ack]) ∧
      ∀ c, c ≠ b → t.out c = s.out c

/-- Rule R176: `STOP` in `AwaitStop` releases the vote, opens the gate, goes to `Idle` and posts the completion event;
the buffer and the latched registers stay, and no bus action is emitted. -/
def Obligations.StopFinishesTheTransaction : Prop :=
  ∀ (s : State) (b : BitVec 2), s.HALT = false → b.toNat < s.params.NBUS → (s.inst b).state = .awaitStop →
    s.vote s.params.BUS_ACTIVE_LEVEL ≠ 0 →
    ∃ t, exec (.subev b .stop) s = .next t ∧
      t = { s with PWR := .awake, bus := t.bus, VOTE := t.VOTE, EV := s.EV ||| (1#32 <<< (s.inst b).evid.toNat),
                   resp := s.resp ++ [(.sev, ⟨true, 0⟩)] } ∧
      t.inst b = { s.inst b with available := true, state := .idle } ∧ (∀ c, c ≠ b → t.inst c = s.inst c) ∧
      (t.vote s.params.BUS_ACTIVE_LEVEL).toNat + 1 = (s.vote s.params.BUS_ACTIVE_LEVEL).toNat ∧
      ∀ l, l ≠ s.params.BUS_ACTIVE_LEVEL → t.vote l = s.vote l

/-- Rule R176: with the transaction's vote gone, `STOP` in `AwaitStop` is fatal error 2; the gate stays closed and no
event is posted. -/
def Obligations.StopWithoutAVoteIsFatal : Prop :=
  ∀ (s : State) (b : BitVec 2), s.HALT = false → b.toNat < s.params.NBUS → (s.inst b).state = .awaitStop →
    s.vote s.params.BUS_ACTIVE_LEVEL = 0 →
    exec (.subev b .stop) s = .next { s with
      PWR := .awake, HALT := true, FCODE := 2, FINFO := s.params.BUS_ACTIVE_LEVEL.setWidth 8,
      haltOut := s.haltOut ++ [⟨true, 2, s.params.BUS_ACTIVE_LEVEL.setWidth 8⟩],
      resp := s.resp ++ [(.sev, ⟨false, 5⟩)] }

/-- Rules R175 and R161: a sub-event the state does not expect is fatal error 1, recorded with the instance, its
state and the kind by their codes in the tables, asserted on `HALTOUT`, and changes nothing but that and `PWR`. -/
def Obligations.UnexpectedSubEventsAreFatal : Prop :=
  ∀ (s : State) (b : BitVec 2) (ev : SubEvent), s.HALT = false → b.toNat < s.params.NBUS →
    expects s.params.READ_ADDR_ACK (s.inst b).state ev.kind = false →
    ∃ info : Byte, exec (.subev b ev) s = .next { s with
        PWR := .awake, HALT := true, FCODE := 1, FINFO := info, haltOut := s.haltOut ++ [⟨true, 1, info⟩],
        resp := s.resp ++ [(.sev, ⟨false, 5⟩)] } ∧
      info.getLsbD 7 = false ∧ info.extractLsb' 5 2 = b ∧ info.extractLsb' 2 3 = tableCode (s.inst b).state ∧
      (info.extractLsb' 0 2).toNat = kindBit ev.kind

/-! ### Whole transactions (41_bus_transaction.md R177) -/

/-- Rule R177, a read of `N` bytes with or without the third acknowledge: the stream on the bus, the bytes packed most
significant first, the lanes above untouched, the vote back, the event posted. -/
def Obligations.WholeReadPacksItsBytes : Prop :=
  ∀ (s : State) (b : BitVec 2) (paddr : BitVec 7) (raddr : Byte) (count : BitVec 3) (evid : BitVec 5)
    (third : Bool) (bytes : List Byte),
    s.params.Valid → s.HALT = false → (Instr.xstart b .read paddr raddr count evid).wellFormed s.params = true →
    (s.inst b).available = true → s.vote s.params.BUS_ACTIVE_LEVEL < s.params.VOTE_MAX →
    (third = true → s.params.READ_ADDR_ACK = .advance) → bytes.length = count.toNat →
    ∃ t, execAll (.xstart b .read paddr raddr count evid :: xferRd b third bytes) s = .next t ∧
      t = { s with PWR := .awake, bus := t.bus, busOut := t.busOut, EV := s.EV ||| (1#32 <<< evid.toNat),
                   resp := t.resp } ∧
      t.inst b = { s.inst b with
        mode := .read, paddr := paddr, raddr := raddr, evid := evid, rem := 0, buf := (t.inst b).buf,
        state := .idle, available := true } ∧
      (∀ k v, bytes[k]? = some v → t.memRead b (count.toNat - 1 - k) = v) ∧
      (∀ k, count.toNat ≤ k → k < 4 → t.memRead b k = s.memRead b k) ∧
      (∀ c, c ≠ b → t.inst c = s.inst c) ∧
      t.out b = s.out b ++ [.start, .txdata (paddr ++ 0#1), .txdata raddr, .start, .txdata (paddr ++ 1#1)] ++
        List.replicate (count.toNat - 1) .ack ++ [.nack, .stop] ∧
      ∀ c, c ≠ b → t.out c = s.out c

/-- Rule R177, a write of `N` bytes: the register address and the lanes `N-1` down to `0` go out, then the stop; the
buffer stays, the vote is back, the event posted. -/
def Obligations.WholeWriteSendsItsLanes : Prop :=
  ∀ (s : State) (b : BitVec 2) (paddr : BitVec 7) (raddr : Byte) (count : BitVec 3) (evid : BitVec 5),
    s.params.Valid → s.HALT = false → (Instr.xstart b .write paddr raddr count evid).wellFormed s.params = true →
    (s.inst b).available = true → s.vote s.params.BUS_ACTIVE_LEVEL < s.params.VOTE_MAX →
    ∃ t, execAll (.xstart b .write paddr raddr count evid :: xferWr b count.toNat) s = .next t ∧
      t = { s with PWR := .awake, bus := t.bus, busOut := t.busOut, EV := s.EV ||| (1#32 <<< evid.toNat),
                   resp := t.resp } ∧
      t.inst b = { s.inst b with
        mode := .write, paddr := paddr, raddr := raddr, evid := evid, rem := 0, state := .idle, available := true } ∧
      (∀ c, c ≠ b → t.inst c = s.inst c) ∧
      t.out b = s.out b ++ [.start, .txdata (paddr ++ 0#1), .txdata raddr] ++
        (List.range count.toNat).reverse.map (fun k => .txdata (s.memRead b k)) ++ [.stop] ∧
      ∀ c, c ≠ b → t.out c = s.out c

/-- Rule R82 (d): two sub-events of two instances that end with the block not halted can be taken in either order, with
the same end state. -/
def Obligations.SubEventsOfTwoInstancesCommute : Prop :=
  ∀ (s t : State) (b c : BitVec 2) (ev ev' : SubEvent), b ≠ c → s.HALT = false →
    b.toNat < s.params.NBUS → c.toNat < s.params.NBUS →
    execAll [.subev b ev, .subev c ev'] s = .next t → t.HALT = false →
    execAll [.subev c ev', .subev b ev] s = .next t

/-! ### Event Scheduler (42_event_scheduler.md) -/

/-- Rule R221: `EVPOST` sets its event's bit and no other, and changes nothing else. -/
def Obligations.EvpostSetsItsBit : Prop :=
  ∀ (s : State) (e : BitVec 5), s.HALT = false → e.toNat < s.params.EVW →
    ∃ t, exec (.evpost e) s = .next t ∧ t = { s with EV := t.EV, resp := s.resp ++ [(.host, ⟨true, 0⟩)] } ∧
      t.EV.getLsbD e.toNat = true ∧ ∀ k, k ≠ e.toNat → t.EV.getLsbD k = s.EV.getLsbD k

/-- Rule R222: `EVCLR` clears its event's bit and no other, and changes nothing else. -/
def Obligations.EvclrClearsItsBit : Prop :=
  ∀ (s : State) (e : BitVec 5), s.HALT = false → e.toNat < s.params.EVW →
    ∃ t, exec (.evclr e) s = .next t ∧ t = { s with EV := t.EV, resp := s.resp ++ [(.host, ⟨true, 0⟩)] } ∧
      t.EV.getLsbD e.toNat = false ∧ ∀ k, k ≠ e.toNat → t.EV.getLsbD k = s.EV.getLsbD k

/-- Rule R223: `EVPEND` answers `EV` and changes nothing. -/
def Obligations.EvpendAnswersTheMask : Prop :=
  ∀ s : State, s.HALT = false → exec .evpend s = .next { s with resp := s.resp ++ [(.host, ⟨true, s.EV⟩)] }

/-- Rules R224 and R229: an uninterrupted drain pass, whatever the handlers do that leaves the block running, the Host
awake and `EV` as it was, leaves no event pending; with handlers that do nothing it changes nothing but `EV`.
That handlers are programs of the form `HostProgram` is the model's choice: log entry 16. -/
def Obligations.DrainPassClearsEveryPendingEvent : Prop :=
  ∀ s : State, s.Inv → s.HALT = false → s.PWR = .awake →
    (∀ handler : BitVec 5 → HostProgram,
      (∀ e u, u.HALT = false → u.PWR = .awake → u.params = s.params →
        ∃ v, (handler e).run [] u = .next v ∧ v.HALT = false ∧ v.PWR = .awake ∧ v.params = u.params ∧ v.EV = u.EV) →
      ∃ t, (drain s.params handler).run [] s = .next t ∧ t.HALT = false ∧ t.EV = 0) ∧
    ∃ t, (drain s.params (fun _ => .done)).run [] s = .next t ∧ t = { s with EV := 0, resp := t.resp }

/-! ### Front-end and system operations (43_frontend_system.md) -/

/-- Rule R241: `IRQRAISE` sets the flag of its kind whatever the enables hold, and a raised `RX` brings its byte to
`RXDATA`; nothing else changes. -/
def Obligations.IrqraiseSetsItsFlag : Prop :=
  ∀ (s : State) (b : BitVec 2) (ev : SubEvent), s.HALT = false → b.toNat < s.params.NBUS →
    ∃ t, exec (.irqraise b ev) s = .next t ∧
      t = { s with bus := t.bus, resp := s.resp ++ [(.env, ⟨true, 0⟩)] } ∧
      t.inst b = { s.inst b with
        IF := (t.inst b).IF, RXDATA := if ev.kind = .rx then ev.byte else (s.inst b).RXDATA } ∧
      (∀ k : Kind, (t.inst b).IF.getLsbD (kindBit k) =
        (decide (k = ev.kind) || (s.inst b).IF.getLsbD (kindBit k))) ∧
      ∀ c, c ≠ b → t.inst c = s.inst c

/-- Rule R242: `IRQEN` writes the three enables of its instance and nothing else. -/
def Obligations.IrqenWritesTheEnables : Prop :=
  ∀ (s : State) (b : BitVec 2) (ien : BitVec 3), s.HALT = false → b.toNat < s.params.NBUS →
    ∃ t, exec (.irqen b ien) s = .next t ∧
      t = { s with bus := t.bus, resp := s.resp ++ [(.host, ⟨true, 0⟩)] } ∧
      t.inst b = { s.inst b with IEN := ien } ∧ ∀ c, c ≠ b → t.inst c = s.inst c

/-- Rule R243: `IRQSTAT` answers the flags, the enables and the receive register in their bits, and clears nothing. -/
def Obligations.IrqstatShowsTheFrontEnd : Prop :=
  ∀ (s : State) (b : BitVec 2), s.HALT = false → b.toNat < s.params.NBUS →
    ∃ d : Word, exec (.irqstat b) s = .next { s with resp := s.resp ++ [(.host, ⟨true, d⟩)] } ∧
      d.extractLsb' 0 3 = (s.inst b).IF ∧ d.extractLsb' 3 3 = (s.inst b).IEN ∧ d.extractLsb' 6 2 = 0 ∧
      d.extractLsb' 8 8 = (s.inst b).RXDATA ∧ d.extractLsb' 16 16 = 0

/-- Rule R246: `FSTAT` answers the fatal status in its bits, halted or not, and changes nothing. -/
def Obligations.FstatShowsTheDiagnostic : Prop :=
  ∀ s : State, ∃ d : Word, exec .fstat s = .next { s with resp := s.resp ++ [(.host, ⟨true, d⟩)] } ∧
    d.getLsbD 0 = s.HALT ∧ d.extractLsb' 1 3 = s.FCODE ∧ d.extractLsb' 4 4 = 0 ∧ d.extractLsb' 8 8 = s.FINFO ∧
    d.extractLsb' 16 16 = 0

/-- Rule R247: `WAKE` sets `PWR` to `Awake` and nothing else. -/
def Obligations.WakeWakesTheHost : Prop :=
  ∀ s : State, s.HALT = false →
    exec .wake s = .next { s with PWR := .awake, resp := s.resp ++ [(.env, ⟨true, 0⟩)] }

/-- Rules R244 and R245: an enabled delivery step clears the flag of the least pending, enabled kind and does, in the
same step, what `SUBEV` of that kind does, with `RXDATA` as the byte of an `RX`; there is no response. -/
def Obligations.DeliveryPerformsTheLeastPendingSubEvent : Prop :=
  ∀ (s t : State) (b : BitVec 2) (k : Kind) (rest : List Input) (flags : BitVec 3),
    s.inputs = .deliver b :: rest → s.HALT = false → b.toNat < s.params.NBUS →
    (s.inst b).IF.getLsbD (kindBit k) = true → (s.inst b).IEN.getLsbD (kindBit k) = true →
    (∀ j : Kind, kindBit j < kindBit k →
      (s.inst b).IF.getLsbD (kindBit j) = false ∨ (s.inst b).IEN.getLsbD (kindBit j) = false) →
    flags.getLsbD (kindBit k) = false →
    (∀ j : Kind, j ≠ k → flags.getLsbD (kindBit j) = (s.inst b).IF.getLsbD (kindBit j)) →
    exec (.subev b (SubEvent.ofKind k (s.inst b).RXDATA))
      ({ s with inputs := rest }.setInst b { s.inst b with IF := flags }) = .next t →
    step s = .next { t with resp := s.resp }

/-- Rule R244: a delivery step that is not enabled (halted, no such instance, nothing both pending and enabled) does
nothing. -/
def Obligations.DeliveryNotEnabledDoesNothing : Prop :=
  ∀ (s : State) (b : BitVec 2) (rest : List Input), s.inputs = .deliver b :: rest →
    s.HALT = true ∨ s.params.NBUS ≤ b.toNat ∨ (s.inst b).IF &&& (s.inst b).IEN = 0 →
    step s = .next { s with inputs := rest }

/-- Rule R362 (a): a state is quiescent exactly when `HALT = 0`, every existing instance is available, and
`IF & IEN = 0` on every existing instance; and with the first two, the third says just that no instance's delivery step
does anything. -/
def Obligations.QuiescentMeansNoEnabledFlag : Prop :=
  ∀ s : State,
    (s.Quiescent ↔ s.HALT = false ∧ (∀ b : BitVec 2, b.toNat < s.params.NBUS → (s.inst b).available = true) ∧
      ∀ b : BitVec 2, b.toNat < s.params.NBUS → (s.inst b).IF &&& (s.inst b).IEN = 0) ∧
    (s.HALT = false → (∀ b : BitVec 2, b.toNat < s.params.NBUS → (s.inst b).available = true) →
      (s.Quiescent ↔ ∀ b, step { s with inputs := [.deliver b] } = .next { s with inputs := [] }))

/-- Rules R178 and R362 (d): a transaction none of whose sub-events is to come stays in its state, in flight, with its
registers, through everything else that can follow without a reset. What counts as to come (`State.SubEventToCome`) is the
model's reading of R362 (d), DEDUCED: log entry 17. -/
def Obligations.StuckTransactionsStay : Prop :=
  ∀ (s t : State) (b : BitVec 2), b.toNat < s.params.NBUS → (s.inst b).available = false → ¬ s.SubEventToCome b →
    s.Reaches t →
    ¬ t.SubEventToCome b ∧
    t.inst b = { s.inst b with IF := (t.inst b).IF, IEN := (t.inst b).IEN, RXDATA := (t.inst b).RXDATA }
end

