-- ==== Sys2Proof/Laws/Encoding.lean ====
section
/-! SUPPORT. Laws.Encoding: reading a field of a word that was put together from fields, and the round trips of the
parts of a word. -/

namespace Sys2Proof

/-- A field that lies wholly in the low or wholly in the high part of `{a, b}` is that part's field. (Cite it through a
hypothesis, `have cut := @extractLsb'_append_cases`: simp then matches the widths of `encode`'s words, which are sums.) -/
theorem extractLsb'_append_cases {n m : Nat} (a : BitVec n) (b : BitVec m) (lo k : Nat) :
    BitVec.extractLsb' lo k (a ++ b) =
      if lo + k ≤ m then BitVec.extractLsb' lo k b
      else if m ≤ lo then BitVec.extractLsb' (lo - m) k a
      else BitVec.extractLsb' lo k (a ++ b) := by
  split
  · ext i hi
    simp [BitVec.getLsbD_append]
    omega
  · split
    · next hlo =>
      ext i hi
      have hnot : ¬ lo + i < m := by omega
      have hidx : lo + i - m = lo - m + i := by omega
      simp [BitVec.getLsbD_append, hnot, hidx]
    · rfl

@[simp] theorem modeOfCode_code (m : Mode) : modeOfCode m.code = m := by cases m <;> rfl

@[simp] theorem decodeSubEvent_encoded (ev : SubEvent) : decodeSubEvent ev.kind.code ev.byte = .ok ev := by
  cases ev <;> rfl

@[simp] theorem requireZero_zero {n : Nat} (i : Except DecodeError Instr) : requireZero (0 : BitVec n) i = i := by
  simp [requireZero]

/-- A format whose reserved field is checked gives an operation only when the field is zero. -/
theorem requireZero_ok {n : Nat} {r : BitVec n} {e : Except DecodeError Instr} {i : Instr}
    (h : requireZero r e = .ok i) : r = 0 ∧ e = .ok i := by
  unfold requireZero at h
  split at h
  · exact ⟨by assumption, h⟩
  · cases h

/-- The sub-event fields that decode are those of the sub-event. -/
theorem decodeSubEvent_ok {k : BitVec 2} {v : Byte} {ev : SubEvent} (h : decodeSubEvent k v = .ok ev) :
    k = ev.kind.code ∧ v = ev.byte := by
  unfold decodeSubEvent at h
  split at h
  · split at h
    · cases h; exact ⟨by assumption, by assumption⟩
    · cases h
  · split at h
    · cases h; exact ⟨by assumption, rfl⟩
    · split at h
      · split at h
        · cases h; exact ⟨by assumption, by assumption⟩
        · cases h
      · cases h

end Sys2Proof
end

