-- ==== Sys2Proof/Laws/State.lean ====
section
/-! SUPPORT. Laws.State: what each named update does to each field of the state, and reading an instance, a counter or
a stream back after it. Proofs cite these instead of unfolding a record update. -/

namespace Sys2Proof.Machine

variable (s : State)

/-! ### `setInst` -/

@[simp] theorem State.setInst_params (b : BitVec 2) (u : BusInstance) : (s.setInst b u).params = s.params := rfl
@[simp] theorem State.setInst_EV (b : BitVec 2) (u : BusInstance) : (s.setInst b u).EV = s.EV := rfl
@[simp] theorem State.setInst_VOTE (b : BitVec 2) (u : BusInstance) : (s.setInst b u).VOTE = s.VOTE := rfl
@[simp] theorem State.setInst_HALT (b : BitVec 2) (u : BusInstance) : (s.setInst b u).HALT = s.HALT := rfl
@[simp] theorem State.setInst_FCODE (b : BitVec 2) (u : BusInstance) : (s.setInst b u).FCODE = s.FCODE := rfl
@[simp] theorem State.setInst_FINFO (b : BitVec 2) (u : BusInstance) : (s.setInst b u).FINFO = s.FINFO := rfl
@[simp] theorem State.setInst_PWR (b : BitVec 2) (u : BusInstance) : (s.setInst b u).PWR = s.PWR := rfl
@[simp] theorem State.setInst_inputs (b : BitVec 2) (u : BusInstance) : (s.setInst b u).inputs = s.inputs := rfl
@[simp] theorem State.setInst_busOut (b : BitVec 2) (u : BusInstance) : (s.setInst b u).busOut = s.busOut := rfl
@[simp] theorem State.setInst_sleepReq (b : BitVec 2) (u : BusInstance) : (s.setInst b u).sleepReq = s.sleepReq := rfl
@[simp] theorem State.setInst_haltOut (b : BitVec 2) (u : BusInstance) : (s.setInst b u).haltOut = s.haltOut := rfl
@[simp] theorem State.setInst_resp (b : BitVec 2) (u : BusInstance) : (s.setInst b u).resp = s.resp := rfl
@[simp] theorem State.setInst_drawn (b : BitVec 2) (u : BusInstance) : (s.setInst b u).drawn = s.drawn := rfl
@[simp] theorem State.setInst_vote (b : BitVec 2) (u : BusInstance) (m : BitVec 3) : (s.setInst b u).vote m = s.vote m := rfl
@[simp] theorem State.setInst_out (b : BitVec 2) (u : BusInstance) (c : BitVec 2) : (s.setInst b u).out c = s.out c := rfl

/-! ### `setVote` -/

@[simp] theorem State.setVote_params (l : BitVec 3) (v : BitVec 8) : (s.setVote l v).params = s.params := rfl
@[simp] theorem State.setVote_bus (l : BitVec 3) (v : BitVec 8) : (s.setVote l v).bus = s.bus := rfl
@[simp] theorem State.setVote_EV (l : BitVec 3) (v : BitVec 8) : (s.setVote l v).EV = s.EV := rfl
@[simp] theorem State.setVote_HALT (l : BitVec 3) (v : BitVec 8) : (s.setVote l v).HALT = s.HALT := rfl
@[simp] theorem State.setVote_FCODE (l : BitVec 3) (v : BitVec 8) : (s.setVote l v).FCODE = s.FCODE := rfl
@[simp] theorem State.setVote_FINFO (l : BitVec 3) (v : BitVec 8) : (s.setVote l v).FINFO = s.FINFO := rfl
@[simp] theorem State.setVote_PWR (l : BitVec 3) (v : BitVec 8) : (s.setVote l v).PWR = s.PWR := rfl
@[simp] theorem State.setVote_inputs (l : BitVec 3) (v : BitVec 8) : (s.setVote l v).inputs = s.inputs := rfl
@[simp] theorem State.setVote_busOut (l : BitVec 3) (v : BitVec 8) : (s.setVote l v).busOut = s.busOut := rfl
@[simp] theorem State.setVote_sleepReq (l : BitVec 3) (v : BitVec 8) : (s.setVote l v).sleepReq = s.sleepReq := rfl
@[simp] theorem State.setVote_haltOut (l : BitVec 3) (v : BitVec 8) : (s.setVote l v).haltOut = s.haltOut := rfl
@[simp] theorem State.setVote_resp (l : BitVec 3) (v : BitVec 8) : (s.setVote l v).resp = s.resp := rfl
@[simp] theorem State.setVote_drawn (l : BitVec 3) (v : BitVec 8) : (s.setVote l v).drawn = s.drawn := rfl
@[simp] theorem State.setVote_inst (l : BitVec 3) (v : BitVec 8) (c : BitVec 2) : (s.setVote l v).inst c = s.inst c := rfl
@[simp] theorem State.setVote_out (l : BitVec 3) (v : BitVec 8) (c : BitVec 2) : (s.setVote l v).out c = s.out c := rfl

/-! ### `emit` -/

@[simp] theorem State.emit_params (b : BitVec 2) (actions : List BusAction) : (s.emit b actions).params = s.params := rfl
@[simp] theorem State.emit_bus (b : BitVec 2) (actions : List BusAction) : (s.emit b actions).bus = s.bus := rfl
@[simp] theorem State.emit_EV (b : BitVec 2) (actions : List BusAction) : (s.emit b actions).EV = s.EV := rfl
@[simp] theorem State.emit_VOTE (b : BitVec 2) (actions : List BusAction) : (s.emit b actions).VOTE = s.VOTE := rfl
@[simp] theorem State.emit_HALT (b : BitVec 2) (actions : List BusAction) : (s.emit b actions).HALT = s.HALT := rfl
@[simp] theorem State.emit_FCODE (b : BitVec 2) (actions : List BusAction) : (s.emit b actions).FCODE = s.FCODE := rfl
@[simp] theorem State.emit_FINFO (b : BitVec 2) (actions : List BusAction) : (s.emit b actions).FINFO = s.FINFO := rfl
@[simp] theorem State.emit_PWR (b : BitVec 2) (actions : List BusAction) : (s.emit b actions).PWR = s.PWR := rfl
@[simp] theorem State.emit_inputs (b : BitVec 2) (actions : List BusAction) : (s.emit b actions).inputs = s.inputs := rfl
@[simp] theorem State.emit_sleepReq (b : BitVec 2) (actions : List BusAction) : (s.emit b actions).sleepReq = s.sleepReq := rfl
@[simp] theorem State.emit_haltOut (b : BitVec 2) (actions : List BusAction) : (s.emit b actions).haltOut = s.haltOut := rfl
@[simp] theorem State.emit_resp (b : BitVec 2) (actions : List BusAction) : (s.emit b actions).resp = s.resp := rfl
@[simp] theorem State.emit_drawn (b : BitVec 2) (actions : List BusAction) : (s.emit b actions).drawn = s.drawn := rfl
@[simp] theorem State.emit_inst (b : BitVec 2) (actions : List BusAction) (c : BitVec 2) : (s.emit b actions).inst c = s.inst c := rfl
@[simp] theorem State.emit_vote (b : BitVec 2) (actions : List BusAction) (m : BitVec 3) : (s.emit b actions).vote m = s.vote m := rfl

/-! ### `emitSleep` -/

@[simp] theorem State.emitSleep_params (l : BitVec 3) : (s.emitSleep l).params = s.params := rfl
@[simp] theorem State.emitSleep_bus (l : BitVec 3) : (s.emitSleep l).bus = s.bus := rfl
@[simp] theorem State.emitSleep_EV (l : BitVec 3) : (s.emitSleep l).EV = s.EV := rfl
@[simp] theorem State.emitSleep_VOTE (l : BitVec 3) : (s.emitSleep l).VOTE = s.VOTE := rfl
@[simp] theorem State.emitSleep_HALT (l : BitVec 3) : (s.emitSleep l).HALT = s.HALT := rfl
@[simp] theorem State.emitSleep_FCODE (l : BitVec 3) : (s.emitSleep l).FCODE = s.FCODE := rfl
@[simp] theorem State.emitSleep_FINFO (l : BitVec 3) : (s.emitSleep l).FINFO = s.FINFO := rfl
@[simp] theorem State.emitSleep_PWR (l : BitVec 3) : (s.emitSleep l).PWR = s.PWR := rfl
@[simp] theorem State.emitSleep_inputs (l : BitVec 3) : (s.emitSleep l).inputs = s.inputs := rfl
@[simp] theorem State.emitSleep_busOut (l : BitVec 3) : (s.emitSleep l).busOut = s.busOut := rfl
@[simp] theorem State.emitSleep_sleepReq (l : BitVec 3) : (s.emitSleep l).sleepReq = s.sleepReq ++ [l] := rfl
@[simp] theorem State.emitSleep_haltOut (l : BitVec 3) : (s.emitSleep l).haltOut = s.haltOut := rfl
@[simp] theorem State.emitSleep_resp (l : BitVec 3) : (s.emitSleep l).resp = s.resp := rfl
@[simp] theorem State.emitSleep_drawn (l : BitVec 3) : (s.emitSleep l).drawn = s.drawn := rfl
@[simp] theorem State.emitSleep_inst (l : BitVec 3) (c : BitVec 2) : (s.emitSleep l).inst c = s.inst c := rfl
@[simp] theorem State.emitSleep_vote (l : BitVec 3) (m : BitVec 3) : (s.emitSleep l).vote m = s.vote m := rfl
@[simp] theorem State.emitSleep_out (l : BitVec 3) (c : BitVec 2) : (s.emitSleep l).out c = s.out c := rfl

/-! ### `emitHalt` -/

@[simp] theorem State.emitHalt_params (level : HaltLevel) : (s.emitHalt level).params = s.params := rfl
@[simp] theorem State.emitHalt_bus (level : HaltLevel) : (s.emitHalt level).bus = s.bus := rfl
@[simp] theorem State.emitHalt_EV (level : HaltLevel) : (s.emitHalt level).EV = s.EV := rfl
@[simp] theorem State.emitHalt_VOTE (level : HaltLevel) : (s.emitHalt level).VOTE = s.VOTE := rfl
@[simp] theorem State.emitHalt_HALT (level : HaltLevel) : (s.emitHalt level).HALT = s.HALT := rfl
@[simp] theorem State.emitHalt_FCODE (level : HaltLevel) : (s.emitHalt level).FCODE = s.FCODE := rfl
@[simp] theorem State.emitHalt_FINFO (level : HaltLevel) : (s.emitHalt level).FINFO = s.FINFO := rfl
@[simp] theorem State.emitHalt_PWR (level : HaltLevel) : (s.emitHalt level).PWR = s.PWR := rfl
@[simp] theorem State.emitHalt_inputs (level : HaltLevel) : (s.emitHalt level).inputs = s.inputs := rfl
@[simp] theorem State.emitHalt_busOut (level : HaltLevel) : (s.emitHalt level).busOut = s.busOut := rfl
@[simp] theorem State.emitHalt_sleepReq (level : HaltLevel) : (s.emitHalt level).sleepReq = s.sleepReq := rfl
@[simp] theorem State.emitHalt_haltOut (level : HaltLevel) : (s.emitHalt level).haltOut = s.haltOut ++ [level] := rfl
@[simp] theorem State.emitHalt_resp (level : HaltLevel) : (s.emitHalt level).resp = s.resp := rfl
@[simp] theorem State.emitHalt_drawn (level : HaltLevel) : (s.emitHalt level).drawn = s.drawn := rfl
@[simp] theorem State.emitHalt_inst (level : HaltLevel) (c : BitVec 2) : (s.emitHalt level).inst c = s.inst c := rfl
@[simp] theorem State.emitHalt_vote (level : HaltLevel) (m : BitVec 3) : (s.emitHalt level).vote m = s.vote m := rfl
@[simp] theorem State.emitHalt_out (level : HaltLevel) (c : BitVec 2) : (s.emitHalt level).out c = s.out c := rfl

/-! ### `wakeUp` -/

@[simp] theorem State.wakeUp_params : s.wakeUp.params = s.params := rfl
@[simp] theorem State.wakeUp_bus : s.wakeUp.bus = s.bus := rfl
@[simp] theorem State.wakeUp_EV : s.wakeUp.EV = s.EV := rfl
@[simp] theorem State.wakeUp_VOTE : s.wakeUp.VOTE = s.VOTE := rfl
@[simp] theorem State.wakeUp_HALT : s.wakeUp.HALT = s.HALT := rfl
@[simp] theorem State.wakeUp_FCODE : s.wakeUp.FCODE = s.FCODE := rfl
@[simp] theorem State.wakeUp_FINFO : s.wakeUp.FINFO = s.FINFO := rfl
@[simp] theorem State.wakeUp_PWR : s.wakeUp.PWR = .awake := rfl
@[simp] theorem State.wakeUp_inputs : s.wakeUp.inputs = s.inputs := rfl
@[simp] theorem State.wakeUp_busOut : s.wakeUp.busOut = s.busOut := rfl
@[simp] theorem State.wakeUp_sleepReq : s.wakeUp.sleepReq = s.sleepReq := rfl
@[simp] theorem State.wakeUp_haltOut : s.wakeUp.haltOut = s.haltOut := rfl
@[simp] theorem State.wakeUp_resp : s.wakeUp.resp = s.resp := rfl
@[simp] theorem State.wakeUp_drawn : s.wakeUp.drawn = s.drawn := rfl
@[simp] theorem State.wakeUp_inst (c : BitVec 2) : s.wakeUp.inst c = s.inst c := rfl
@[simp] theorem State.wakeUp_vote (m : BitVec 3) : s.wakeUp.vote m = s.vote m := rfl
@[simp] theorem State.wakeUp_out (c : BitVec 2) : s.wakeUp.out c = s.out c := rfl

/-! ### `respond` -/

@[simp] theorem State.respond_params (p : Port) (ok : Bool) (data : Word) : (s.respond p ok data).params = s.params := rfl
@[simp] theorem State.respond_bus (p : Port) (ok : Bool) (data : Word) : (s.respond p ok data).bus = s.bus := rfl
@[simp] theorem State.respond_EV (p : Port) (ok : Bool) (data : Word) : (s.respond p ok data).EV = s.EV := rfl
@[simp] theorem State.respond_VOTE (p : Port) (ok : Bool) (data : Word) : (s.respond p ok data).VOTE = s.VOTE := rfl
@[simp] theorem State.respond_HALT (p : Port) (ok : Bool) (data : Word) : (s.respond p ok data).HALT = s.HALT := rfl
@[simp] theorem State.respond_FCODE (p : Port) (ok : Bool) (data : Word) : (s.respond p ok data).FCODE = s.FCODE := rfl
@[simp] theorem State.respond_FINFO (p : Port) (ok : Bool) (data : Word) : (s.respond p ok data).FINFO = s.FINFO := rfl
@[simp] theorem State.respond_PWR (p : Port) (ok : Bool) (data : Word) : (s.respond p ok data).PWR = s.PWR := rfl
@[simp] theorem State.respond_inputs (p : Port) (ok : Bool) (data : Word) : (s.respond p ok data).inputs = s.inputs := rfl
@[simp] theorem State.respond_busOut (p : Port) (ok : Bool) (data : Word) : (s.respond p ok data).busOut = s.busOut := rfl
@[simp] theorem State.respond_sleepReq (p : Port) (ok : Bool) (data : Word) : (s.respond p ok data).sleepReq = s.sleepReq := rfl
@[simp] theorem State.respond_haltOut (p : Port) (ok : Bool) (data : Word) : (s.respond p ok data).haltOut = s.haltOut := rfl
@[simp] theorem State.respond_resp (p : Port) (ok : Bool) (data : Word) : (s.respond p ok data).resp = s.resp ++ [(p, ⟨ok, data⟩)] := rfl
@[simp] theorem State.respond_drawn (p : Port) (ok : Bool) (data : Word) : (s.respond p ok data).drawn = s.drawn := rfl
@[simp] theorem State.respond_inst (p : Port) (ok : Bool) (data : Word) (c : BitVec 2) : (s.respond p ok data).inst c = s.inst c := rfl
@[simp] theorem State.respond_vote (p : Port) (ok : Bool) (data : Word) (m : BitVec 3) : (s.respond p ok data).vote m = s.vote m := rfl
@[simp] theorem State.respond_out (p : Port) (ok : Bool) (data : Word) (c : BitVec 2) : (s.respond p ok data).out c = s.out c := rfl

/-! ### `refuse` -/

@[simp] theorem State.refuse_params (p : Port) (r : Reason) : (s.refuse p r).params = s.params := rfl
@[simp] theorem State.refuse_bus (p : Port) (r : Reason) : (s.refuse p r).bus = s.bus := rfl
@[simp] theorem State.refuse_EV (p : Port) (r : Reason) : (s.refuse p r).EV = s.EV := rfl
@[simp] theorem State.refuse_VOTE (p : Port) (r : Reason) : (s.refuse p r).VOTE = s.VOTE := rfl
@[simp] theorem State.refuse_HALT (p : Port) (r : Reason) : (s.refuse p r).HALT = s.HALT := rfl
@[simp] theorem State.refuse_FCODE (p : Port) (r : Reason) : (s.refuse p r).FCODE = s.FCODE := rfl
@[simp] theorem State.refuse_FINFO (p : Port) (r : Reason) : (s.refuse p r).FINFO = s.FINFO := rfl
@[simp] theorem State.refuse_PWR (p : Port) (r : Reason) : (s.refuse p r).PWR = s.PWR := rfl
@[simp] theorem State.refuse_inputs (p : Port) (r : Reason) : (s.refuse p r).inputs = s.inputs := rfl
@[simp] theorem State.refuse_busOut (p : Port) (r : Reason) : (s.refuse p r).busOut = s.busOut := rfl
@[simp] theorem State.refuse_sleepReq (p : Port) (r : Reason) : (s.refuse p r).sleepReq = s.sleepReq := rfl
@[simp] theorem State.refuse_haltOut (p : Port) (r : Reason) : (s.refuse p r).haltOut = s.haltOut := rfl
@[simp] theorem State.refuse_resp (p : Port) (r : Reason) : (s.refuse p r).resp = s.resp ++ [(p, ⟨false, r.word⟩)] := rfl
@[simp] theorem State.refuse_drawn (p : Port) (r : Reason) : (s.refuse p r).drawn = s.drawn := rfl
@[simp] theorem State.refuse_inst (p : Port) (r : Reason) (c : BitVec 2) : (s.refuse p r).inst c = s.inst c := rfl
@[simp] theorem State.refuse_vote (p : Port) (r : Reason) (m : BitVec 3) : (s.refuse p r).vote m = s.vote m := rfl
@[simp] theorem State.refuse_out (p : Port) (r : Reason) (c : BitVec 2) : (s.refuse p r).out c = s.out c := rfl

/-! ### `raiseFatal` -/

@[simp] theorem State.raiseFatal_params (e : FatalError) : (s.raiseFatal e).params = s.params := rfl
@[simp] theorem State.raiseFatal_bus (e : FatalError) : (s.raiseFatal e).bus = s.bus := rfl
@[simp] theorem State.raiseFatal_EV (e : FatalError) : (s.raiseFatal e).EV = s.EV := rfl
@[simp] theorem State.raiseFatal_VOTE (e : FatalError) : (s.raiseFatal e).VOTE = s.VOTE := rfl
@[simp] theorem State.raiseFatal_HALT (e : FatalError) : (s.raiseFatal e).HALT = true := rfl
@[simp] theorem State.raiseFatal_FCODE (e : FatalError) : (s.raiseFatal e).FCODE = e.code := rfl
@[simp] theorem State.raiseFatal_FINFO (e : FatalError) : (s.raiseFatal e).FINFO = e.info := rfl
@[simp] theorem State.raiseFatal_PWR (e : FatalError) : (s.raiseFatal e).PWR = s.PWR := rfl
@[simp] theorem State.raiseFatal_inputs (e : FatalError) : (s.raiseFatal e).inputs = s.inputs := rfl
@[simp] theorem State.raiseFatal_busOut (e : FatalError) : (s.raiseFatal e).busOut = s.busOut := rfl
@[simp] theorem State.raiseFatal_sleepReq (e : FatalError) : (s.raiseFatal e).sleepReq = s.sleepReq := rfl
@[simp] theorem State.raiseFatal_haltOut (e : FatalError) : (s.raiseFatal e).haltOut = s.haltOut ++ [⟨true, e.code, e.info⟩] := rfl
@[simp] theorem State.raiseFatal_resp (e : FatalError) : (s.raiseFatal e).resp = s.resp := rfl
@[simp] theorem State.raiseFatal_drawn (e : FatalError) : (s.raiseFatal e).drawn = s.drawn := rfl
@[simp] theorem State.raiseFatal_inst (e : FatalError) (c : BitVec 2) : (s.raiseFatal e).inst c = s.inst c := rfl
@[simp] theorem State.raiseFatal_vote (e : FatalError) (m : BitVec 3) : (s.raiseFatal e).vote m = s.vote m := rfl
@[simp] theorem State.raiseFatal_out (e : FatalError) (c : BitVec 2) : (s.raiseFatal e).out c = s.out c := rfl

/-! ### `memWrite` -/

@[simp] theorem State.memWrite_params (b : BitVec 2) (k : Nat) (v : Byte) : (s.memWrite b k v).params = s.params := rfl
@[simp] theorem State.memWrite_EV (b : BitVec 2) (k : Nat) (v : Byte) : (s.memWrite b k v).EV = s.EV := rfl
@[simp] theorem State.memWrite_VOTE (b : BitVec 2) (k : Nat) (v : Byte) : (s.memWrite b k v).VOTE = s.VOTE := rfl
@[simp] theorem State.memWrite_HALT (b : BitVec 2) (k : Nat) (v : Byte) : (s.memWrite b k v).HALT = s.HALT := rfl
@[simp] theorem State.memWrite_FCODE (b : BitVec 2) (k : Nat) (v : Byte) : (s.memWrite b k v).FCODE = s.FCODE := rfl
@[simp] theorem State.memWrite_FINFO (b : BitVec 2) (k : Nat) (v : Byte) : (s.memWrite b k v).FINFO = s.FINFO := rfl
@[simp] theorem State.memWrite_PWR (b : BitVec 2) (k : Nat) (v : Byte) : (s.memWrite b k v).PWR = s.PWR := rfl
@[simp] theorem State.memWrite_inputs (b : BitVec 2) (k : Nat) (v : Byte) : (s.memWrite b k v).inputs = s.inputs := rfl
@[simp] theorem State.memWrite_busOut (b : BitVec 2) (k : Nat) (v : Byte) : (s.memWrite b k v).busOut = s.busOut := rfl
@[simp] theorem State.memWrite_sleepReq (b : BitVec 2) (k : Nat) (v : Byte) : (s.memWrite b k v).sleepReq = s.sleepReq := rfl
@[simp] theorem State.memWrite_haltOut (b : BitVec 2) (k : Nat) (v : Byte) : (s.memWrite b k v).haltOut = s.haltOut := rfl
@[simp] theorem State.memWrite_resp (b : BitVec 2) (k : Nat) (v : Byte) : (s.memWrite b k v).resp = s.resp := rfl
@[simp] theorem State.memWrite_drawn (b : BitVec 2) (k : Nat) (v : Byte) : (s.memWrite b k v).drawn = s.drawn := rfl
@[simp] theorem State.memWrite_vote (b : BitVec 2) (k : Nat) (v : Byte) (m : BitVec 3) : (s.memWrite b k v).vote m = s.vote m := rfl
@[simp] theorem State.memWrite_out (b : BitVec 2) (k : Nat) (v : Byte) (c : BitVec 2) : (s.memWrite b k v).out c = s.out c := rfl

/-! ### `goto` -/

@[simp] theorem State.goto_params (b : BitVec 2) (st : BtsmState) : (s.goto b st).params = s.params := rfl
@[simp] theorem State.goto_EV (b : BitVec 2) (st : BtsmState) : (s.goto b st).EV = s.EV := rfl
@[simp] theorem State.goto_VOTE (b : BitVec 2) (st : BtsmState) : (s.goto b st).VOTE = s.VOTE := rfl
@[simp] theorem State.goto_HALT (b : BitVec 2) (st : BtsmState) : (s.goto b st).HALT = s.HALT := rfl
@[simp] theorem State.goto_FCODE (b : BitVec 2) (st : BtsmState) : (s.goto b st).FCODE = s.FCODE := rfl
@[simp] theorem State.goto_FINFO (b : BitVec 2) (st : BtsmState) : (s.goto b st).FINFO = s.FINFO := rfl
@[simp] theorem State.goto_PWR (b : BitVec 2) (st : BtsmState) : (s.goto b st).PWR = s.PWR := rfl
@[simp] theorem State.goto_inputs (b : BitVec 2) (st : BtsmState) : (s.goto b st).inputs = s.inputs := rfl
@[simp] theorem State.goto_busOut (b : BitVec 2) (st : BtsmState) : (s.goto b st).busOut = s.busOut := rfl
@[simp] theorem State.goto_sleepReq (b : BitVec 2) (st : BtsmState) : (s.goto b st).sleepReq = s.sleepReq := rfl
@[simp] theorem State.goto_haltOut (b : BitVec 2) (st : BtsmState) : (s.goto b st).haltOut = s.haltOut := rfl
@[simp] theorem State.goto_resp (b : BitVec 2) (st : BtsmState) : (s.goto b st).resp = s.resp := rfl
@[simp] theorem State.goto_drawn (b : BitVec 2) (st : BtsmState) : (s.goto b st).drawn = s.drawn := rfl
@[simp] theorem State.goto_vote (b : BitVec 2) (st : BtsmState) (m : BitVec 3) : (s.goto b st).vote m = s.vote m := rfl
@[simp] theorem State.goto_out (b : BitVec 2) (st : BtsmState) (c : BitVec 2) : (s.goto b st).out c = s.out c := rfl

/-! ### `setRem` -/

@[simp] theorem State.setRem_params (b : BitVec 2) (r : BitVec 3) : (s.setRem b r).params = s.params := rfl
@[simp] theorem State.setRem_EV (b : BitVec 2) (r : BitVec 3) : (s.setRem b r).EV = s.EV := rfl
@[simp] theorem State.setRem_VOTE (b : BitVec 2) (r : BitVec 3) : (s.setRem b r).VOTE = s.VOTE := rfl
@[simp] theorem State.setRem_HALT (b : BitVec 2) (r : BitVec 3) : (s.setRem b r).HALT = s.HALT := rfl
@[simp] theorem State.setRem_FCODE (b : BitVec 2) (r : BitVec 3) : (s.setRem b r).FCODE = s.FCODE := rfl
@[simp] theorem State.setRem_FINFO (b : BitVec 2) (r : BitVec 3) : (s.setRem b r).FINFO = s.FINFO := rfl
@[simp] theorem State.setRem_PWR (b : BitVec 2) (r : BitVec 3) : (s.setRem b r).PWR = s.PWR := rfl
@[simp] theorem State.setRem_inputs (b : BitVec 2) (r : BitVec 3) : (s.setRem b r).inputs = s.inputs := rfl
@[simp] theorem State.setRem_busOut (b : BitVec 2) (r : BitVec 3) : (s.setRem b r).busOut = s.busOut := rfl
@[simp] theorem State.setRem_sleepReq (b : BitVec 2) (r : BitVec 3) : (s.setRem b r).sleepReq = s.sleepReq := rfl
@[simp] theorem State.setRem_haltOut (b : BitVec 2) (r : BitVec 3) : (s.setRem b r).haltOut = s.haltOut := rfl
@[simp] theorem State.setRem_resp (b : BitVec 2) (r : BitVec 3) : (s.setRem b r).resp = s.resp := rfl
@[simp] theorem State.setRem_drawn (b : BitVec 2) (r : BitVec 3) : (s.setRem b r).drawn = s.drawn := rfl
@[simp] theorem State.setRem_vote (b : BitVec 2) (r : BitVec 3) (m : BitVec 3) : (s.setRem b r).vote m = s.vote m := rfl
@[simp] theorem State.setRem_out (b : BitVec 2) (r : BitVec 3) (c : BitVec 2) : (s.setRem b r).out c = s.out c := rfl

/-! ### Reading back what was written -/

theorem State.setInst_inst (b c : BitVec 2) (u : BusInstance) :
    (s.setInst b u).inst c = if b = c then u else s.inst c := by
  simp [State.inst, State.setInst, Vector.getElem_set, BitVec.toNat_inj]

@[simp] theorem State.setInst_inst_same (b : BitVec 2) (u : BusInstance) : (s.setInst b u).inst b = u := by
  simp [State.setInst_inst]

@[simp] theorem State.setInst_inst_other {b c : BitVec 2} (h : c ≠ b) (u : BusInstance) :
    (s.setInst b u).inst c = s.inst c := by
  simp [State.setInst_inst, Ne.symm h]

theorem State.setVote_vote (l m : BitVec 3) (v : BitVec 8) :
    (s.setVote l v).vote m = if l = m then v else s.vote m := by
  simp [State.vote, State.setVote, Vector.getElem_set, BitVec.toNat_inj]

@[simp] theorem State.setVote_vote_same (l : BitVec 3) (v : BitVec 8) : (s.setVote l v).vote l = v := by
  simp [State.setVote_vote]

@[simp] theorem State.setVote_vote_other {l m : BitVec 3} (h : m ≠ l) (v : BitVec 8) :
    (s.setVote l v).vote m = s.vote m := by
  simp [State.setVote_vote, Ne.symm h]

theorem State.emit_out (b c : BitVec 2) (actions : List BusAction) :
    (s.emit b actions).out c = if b = c then s.out b ++ actions else s.out c := by
  simp [State.out, State.emit, Vector.getElem_set, BitVec.toNat_inj]

@[simp] theorem State.emit_out_same (b : BitVec 2) (actions : List BusAction) :
    (s.emit b actions).out b = s.out b ++ actions := by
  simp [State.emit_out]

@[simp] theorem State.emit_out_other {b c : BitVec 2} (h : c ≠ b) (actions : List BusAction) :
    (s.emit b actions).out c = s.out c := by
  simp [State.emit_out, Ne.symm h]

@[simp] theorem State.memWrite_inst_same (b : BitVec 2) (k : Nat) (v : Byte) :
    (s.memWrite b k v).inst b = { s.inst b with buf := withLane (s.inst b).buf k v } := by
  simp [State.memWrite]

@[simp] theorem State.memWrite_inst_other {b c : BitVec 2} (h : c ≠ b) (k : Nat) (v : Byte) :
    (s.memWrite b k v).inst c = s.inst c := by
  simp [State.memWrite, h]

@[simp] theorem State.goto_inst_same (b : BitVec 2) (st : BtsmState) :
    (s.goto b st).inst b = { s.inst b with state := st } := by
  simp [State.goto]

@[simp] theorem State.goto_inst_other {b c : BitVec 2} (h : c ≠ b) (st : BtsmState) :
    (s.goto b st).inst c = s.inst c := by
  simp [State.goto, h]

@[simp] theorem State.setRem_inst_same (b : BitVec 2) (r : BitVec 3) :
    (s.setRem b r).inst b = { s.inst b with rem := r } := by
  simp [State.setRem]

@[simp] theorem State.setRem_inst_other {b c : BitVec 2} (h : c ≠ b) (r : BitVec 3) :
    (s.setRem b r).inst c = s.inst c := by
  simp [State.setRem, h]

/-- Writing an instance twice is writing it once. -/
@[simp] theorem State.setInst_setInst (b : BitVec 2) (u v : BusInstance) :
    (s.setInst b u).setInst b v = s.setInst b v := by
  simp [State.setInst]

/-- Writing an instance back as it is changes nothing. -/
@[simp] theorem State.setInst_inst_self (b : BitVec 2) : s.setInst b (s.inst b) = s := by
  simp [State.setInst, State.inst]

@[simp] theorem reset_inst (b : BitVec 2) : State.reset.inst b = BusInstance.reset := by
  simp [State.inst, State.reset]

@[simp] theorem reset_vote (l : BitVec 3) : State.reset.vote l = 0 := by
  simp [State.vote, State.reset]

@[simp] theorem reset_out (b : BitVec 2) : State.reset.out b = [] := by
  simp [State.out, State.reset]

@[simp] theorem State.applyReset_inst (b : BitVec 2) : s.applyReset.inst b = BusInstance.reset := by
  simp [State.applyReset, State.inst, State.reset]

@[simp] theorem State.applyReset_vote (l : BitVec 3) : s.applyReset.vote l = 0 := by
  simp [State.applyReset, State.vote, State.reset]

@[simp] theorem State.applyReset_out (b : BitVec 2) : s.applyReset.out b = s.out b := rfl

/-- Two states whose every instance is the same have the same instances. -/
theorem State.bus_ext {s t : State} (h : ∀ b, s.inst b = t.inst b) : s.bus = t.bus := by
  ext1 i hi
  have := h (BitVec.ofNat 2 i)
  simpa [State.inst, Nat.mod_eq_of_lt hi] using this

/-- Two states whose every counter is the same have the same counters. -/
theorem State.vote_ext {s t : State} (h : ∀ l, s.vote l = t.vote l) : s.VOTE = t.VOTE := by
  ext1 i hi
  have := h (BitVec.ofNat 3 i)
  simpa [State.vote, Nat.mod_eq_of_lt hi] using this

/-- Two states whose every `BUSOUT` stream is the same have the same streams. -/
theorem State.out_ext {s t : State} (h : ∀ b, s.out b = t.out b) : s.busOut = t.busOut := by
  ext1 i hi
  have := h (BitVec.ofNat 2 i)
  simpa [State.out, Nat.mod_eq_of_lt hi] using this

end Sys2Proof.Machine
end

