-- ==== Sys2Proof/Laws/Ops.lean ====
section
/-! SUPPORT. Laws.Ops: for each shared operation, one lemma that says once everything it can do. Proofs cite these
instead of unfolding the operation. -/

namespace Sys2Proof.Machine

/-! ### Lanes (rule R72) -/

/-- The mask of one byte. -/
theorem byteMask_bit (m : Nat) : (0xFF#32 : Word).getLsbD m = decide (m < 8) := by
  have h : (255 : Nat) = 2 ^ 8 - 1 := by decide
  rw [BitVec.getLsbD_ofNat, h, Nat.testBit_two_pow_sub_one]
  by_cases hm : m < 8
  · have : m < 32 := by omega
    simp [hm, this]
  · simp [hm]

/-- Each bit of the buffer after a lane write: the byte's bit inside the lane, the old bit outside. -/
theorem withLane_bit (buf : Word) (k : Nat) (v : Byte) (m : Nat) (hm : m < 32) :
    (withLane buf k v).getLsbD m =
      if 8 * k ≤ m ∧ m < 8 * k + 8 then v.getLsbD (m - 8 * k) else buf.getLsbD m := by
  unfold withLane
  rw [BitVec.getLsbD_or, BitVec.getLsbD_and, BitVec.getLsbD_not, BitVec.getLsbD_shiftLeft, BitVec.getLsbD_shiftLeft,
    byteMask_bit, BitVec.getLsbD_setWidth]
  by_cases h1 : m < 8 * k
  · have : ¬ 8 * k ≤ m := by omega
    simp [h1, hm, this]
  · by_cases h2 : m < 8 * k + 8
    · have h3 : m - 8 * k < 8 := by omega
      have h4 : m - 8 * k < 32 := by omega
      have h5 : 8 * k ≤ m := by omega
      simp [h1, h2, h3, h4, h5, hm]
    · have h3 : ¬ m - 8 * k < 8 := by omega
      have h4 : 8 ≤ m - 8 * k := by omega
      simp [h1, h2, h3, hm, BitVec.getLsbD_of_ge v _ h4]

/-- Lane `k` after a write of lane `j`: the byte written if it is the same lane, else what it was. -/
theorem laneOf_withLane (buf : Word) (j k : Nat) (v : Byte) (hk : k < 4) :
    laneOf (withLane buf j v) k = if j = k then v else laneOf buf k := by
  apply BitVec.eq_of_getLsbD_eq
  intro i hi
  have hm : 8 * k + i < 32 := by omega
  rw [laneOf, BitVec.getLsbD_extractLsb', withLane_bit _ _ _ _ hm]
  by_cases hjk : j = k
  · subst hjk
    have h1 : 8 * j + i < 8 * j + 8 := by omega
    have h2 : 8 * j + i - 8 * j = i := by omega
    simp [hi, h2]
  · have h1 : ¬ (8 * j ≤ 8 * k + i ∧ 8 * k + i < 8 * j + 8) := by omega
    simp [hjk, h1, hi, laneOf]

/-! ### The common checks and the ends of an operation (rules R127 and R272) -/

theorem checked_halted {p : Port} {r : Bool} {s : State} (run : Host.Outcome State Fault Refusal)
    (h : s.HALT = true) : checked p r s run = .next (s.refuse p .halted) := by
  simp [checked, h]

theorem checked_run {p : Port} {r : Bool} {s : State} (run : Host.Outcome State Fault Refusal)
    (h : s.HALT = false) (hr : r = true) : checked p r s run = run := by
  simp [checked, h, hr]

theorem checked_range {p : Port} {r : Bool} {s : State} (run : Host.Outcome State Fault Refusal)
    (h : s.HALT = false) (hr : r = false) : checked p r s run = .next (s.refuse p .range) := by
  simp [checked, h, hr]

/-- A checked operation is refused, with nothing but a response, or it runs. -/
theorem checked_cases (p : Port) (r : Bool) (s : State) (run : Host.Outcome State Fault Refusal) :
    (s.HALT = true ∧ checked p r s run = .next (s.refuse p .halted)) ∨
    (s.HALT = false ∧ r = false ∧ checked p r s run = .next (s.refuse p .range)) ∨
    (s.HALT = false ∧ r = true ∧ checked p r s run = run) := by
  cases h : s.HALT <;> cases hr : r <;> simp [checked, h]

/-- What an operation that can raise goes on to: the answered result, or the fatal error over the state it was raised
in. -/
theorem conclude_next {p : Port} {s0 t : State} {h : Handled} (hn : conclude p s0 h = .next t) :
    (∃ u, h = .done u ∧ t = u.respond p true 0) ∨ (∃ e, h = .fatal e ∧ t = (s0.raiseFatal e).refuse p .fatal) := by
  cases h with
  | done u => simp [conclude] at hn; exact .inl ⟨u, rfl, hn.symm⟩
  | fatal e => simp [conclude] at hn; exact .inr ⟨e, rfl, hn.symm⟩
  | broken f => simp [conclude] at hn

/-- What a delivery step goes on to: the result, or the fatal error, unanswered. -/
theorem concludeUnanswered_next {s0 t : State} {h : Handled} (hn : concludeUnanswered s0 h = .next t) :
    h = .done t ∨ (∃ e, h = .fatal e ∧ t = s0.raiseFatal e) := by
  cases h with
  | done u => simp [concludeUnanswered] at hn; exact .inl (by rw [hn])
  | fatal e => simp [concludeUnanswered] at hn; exact .inr ⟨e, rfl, hn.symm⟩
  | broken f => simp [concludeUnanswered] at hn

/-- An accepted operation goes on to its answered state. -/
theorem accept_next {p : Port} {d : Word} {s t : State} (hn : accept p d s = .next t) : t = s.respond p true d := by
  simp [accept] at hn; exact hn.symm

theorem unlessBusy_cases (b : BitVec 2) (s : State) (run : Host.Outcome State Fault Refusal) :
    ((s.inst b).available = false ∧ unlessBusy b s run = .next (s.refuse .host .busy)) ∨
    ((s.inst b).available = true ∧ unlessBusy b s run = run) := by
  cases h : (s.inst b).available <;> simp [unlessBusy, h]

/-! ### Votes (rules R141, R142, R144, R146) -/

theorem block_cases (l : BitVec 3) (s : State) :
    (s.vote l < s.params.VOTE_MAX ∧ block l s = .done (s.setVote l (s.vote l + 1))) ∨
    (s.params.VOTE_MAX ≤ s.vote l ∧ block l s = .fatal (.voteOverflow l)) := by
  by_cases h : s.vote l < s.params.VOTE_MAX
  · exact .inl ⟨h, by simp [block, h]⟩
  · exact .inr ⟨by simpa using h, by simp [block, h]⟩

theorem unblock_cases (l : BitVec 3) (s : State) :
    (s.vote l = 0 ∧ unblock l s = .fatal (.voteUnderflow l)) ∨
    (s.vote l ≠ 0 ∧ unblock l s = .done (s.setVote l (s.vote l - 1))) := by
  by_cases h : s.vote l = 0
  · exact .inl ⟨h, by simp [unblock, h]⟩
  · exact .inr ⟨h, by simp only [unblock, if_neg h]⟩

/-! ### The sequencer (rules R161 to R176) -/

theorem withDataByte_cases (b : BitVec 2) (s : State) (run : BitVec 3 → State) :
    (1 ≤ (s.inst b).rem.toNat ∧ (s.inst b).rem.toNat ≤ s.params.NMAX ∧
      withDataByte b s run = .done (run ((s.inst b).rem - 1))) ∨
    (¬ (1 ≤ (s.inst b).rem.toNat ∧ (s.inst b).rem.toNat ≤ s.params.NMAX) ∧
      withDataByte b s run = .broken (.countOutOfRange b)) := by
  by_cases h : 1 ≤ (s.inst b).rem.toNat ∧ (s.inst b).rem.toNat ≤ s.params.NMAX
  · exact .inl ⟨h.1, h.2, by simp [withDataByte, h]⟩
  · exact .inr ⟨h, by simp only [withDataByte, if_neg h]⟩

/-- `ACK` in `AwaitAddressAck`: the instance, the stream, and nothing else. -/
theorem ackAddress_spec (b : BitVec 2) (s : State) :
    (ackAddress b s).inst b = { s.inst b with
      state := match (s.inst b).mode with | .read => .awaitRegisterAck | .write => .writingData } ∧
    (∀ c, c ≠ b → (ackAddress b s).inst c = s.inst c) ∧
    (ackAddress b s).out b = s.out b ++ [.txdata (s.inst b).raddr] ∧
    (∀ c, c ≠ b → (ackAddress b s).out c = s.out c) ∧
    ackAddress b s = { s with bus := (ackAddress b s).bus, busOut := (ackAddress b s).busOut } :=
  ⟨by cases h : (s.inst b).mode <;> simp [ackAddress, h], fun c hc => by simp [ackAddress, hc], by simp [ackAddress],
    fun c hc => by simp [ackAddress, hc], rfl⟩

/-- `ACK` in `AwaitRegisterAck`: the instance, the stream, and nothing else. -/
theorem ackRegister_spec (b : BitVec 2) (s : State) :
    (ackRegister b s).inst b = { s.inst b with state := .awaitReadRestartAck } ∧
    (∀ c, c ≠ b → (ackRegister b s).inst c = s.inst c) ∧
    (ackRegister b s).out b = s.out b ++ [.start, .txdata (addrByte (s.inst b).paddr 1)] ∧
    (∀ c, c ≠ b → (ackRegister b s).out c = s.out c) ∧
    ackRegister b s = { s with bus := (ackRegister b s).bus, busOut := (ackRegister b s).busOut } :=
  ⟨by simp [ackRegister], fun c hc => by simp [ackRegister, hc], by simp [ackRegister],
    fun c hc => by simp [ackRegister, hc], rfl⟩

/-- Sending a byte: the instance, the stream, and nothing else. -/
theorem sendByte_spec (b : BitVec 2) (s : State) (r : BitVec 3) :
    (sendByte b s r).inst b =
      { s.inst b with rem := r, state := if r = 0 then .awaitStop else (s.inst b).state } ∧
    (∀ c, c ≠ b → (sendByte b s r).inst c = s.inst c) ∧
    (sendByte b s r).out b = s.out b ++ [.txdata (s.memRead b r.toNat)] ++ (if r = 0 then [.stop] else []) ∧
    (∀ c, c ≠ b → (sendByte b s r).out c = s.out c) ∧
    sendByte b s r = { s with bus := (sendByte b s r).bus, busOut := (sendByte b s r).busOut } := by
  refine ⟨?_, fun c hc => ?_, ?_, fun c hc => ?_, ?_⟩ <;> unfold sendByte <;> split
  all_goals first | rfl | simp_all

/-- Receiving a byte: the instance, the stream, and nothing else. -/
theorem receiveByte_spec (b : BitVec 2) (v : Byte) (s : State) (r : BitVec 3) :
    (receiveByte b v s r).inst b =
      { s.inst b with
        rem := r, buf := withLane (s.inst b).buf r.toNat v,
        state := if r = 0 then .awaitStop else .receivingData } ∧
    (∀ c, c ≠ b → (receiveByte b v s r).inst c = s.inst c) ∧
    (receiveByte b v s r).out b = s.out b ++ (if r = 0 then [.nack, .stop] else [.ack]) ∧
    (∀ c, c ≠ b → (receiveByte b v s r).out c = s.out c) ∧
    receiveByte b v s r = { s with bus := (receiveByte b v s r).bus, busOut := (receiveByte b v s r).busOut } := by
  refine ⟨?_, fun c hc => ?_, ?_, fun c hc => ?_, ?_⟩ <;> unfold receiveByte <;> split
  all_goals first | rfl | simp_all

/-- `STOP` in `AwaitStop`: the underflow, or the vote back, the gate open, the event posted. -/
theorem finishTransaction_cases (b : BitVec 2) (s : State) :
    (s.vote s.params.BUS_ACTIVE_LEVEL = 0 ∧
      finishTransaction b s = .fatal (.voteUnderflow s.params.BUS_ACTIVE_LEVEL)) ∨
    (s.vote s.params.BUS_ACTIVE_LEVEL ≠ 0 ∧
      finishTransaction b s =
        .done { (s.setVote s.params.BUS_ACTIVE_LEVEL (s.vote s.params.BUS_ACTIVE_LEVEL - 1)).setInst b
            { s.inst b with available := true, state := .idle } with
          EV := s.EV ||| eventMask (s.inst b).evid }) := by
  rcases unblock_cases s.params.BUS_ACTIVE_LEVEL s with ⟨h, hu⟩ | ⟨h, hu⟩
  · exact .inl ⟨h, by simp [finishTransaction, hu]⟩
  · exact .inr ⟨h, by simp [finishTransaction, hu]⟩

/-- An accepted `XSTART`: the overflow, or the vote taken and the transaction begun. -/
theorem startTransaction_cases (b : BitVec 2) (mode : Mode) (paddr : BitVec 7) (raddr : Byte) (count : BitVec 3)
    (evid : BitVec 5) (s : State) :
    (s.vote s.params.BUS_ACTIVE_LEVEL < s.params.VOTE_MAX ∧
      startTransaction b mode paddr raddr count evid s =
        .done (((s.setVote s.params.BUS_ACTIVE_LEVEL (s.vote s.params.BUS_ACTIVE_LEVEL + 1)).setInst b
          { s.inst b with
            available := false, mode := mode, paddr := paddr, raddr := raddr, rem := count, evid := evid,
            state := .awaitAddressAck }).emit b [.start, .txdata (addrByte paddr 0)])) ∨
    (s.params.VOTE_MAX ≤ s.vote s.params.BUS_ACTIVE_LEVEL ∧
      startTransaction b mode paddr raddr count evid s = .fatal (.voteOverflow s.params.BUS_ACTIVE_LEVEL)) := by
  rcases block_cases s.params.BUS_ACTIVE_LEVEL s with ⟨h, hb⟩ | ⟨h, hb⟩
  · exact .inl ⟨h, by simp [startTransaction, hb]⟩
  · exact .inr ⟨h, by simp [startTransaction, hb]⟩

/-- The transition table: which of the things a sub-event can do it does. -/
theorem handle_cases (b : BitVec 2) (ev : SubEvent) (s : State) :
    (expects s.params.READ_ADDR_ACK (s.inst b).state ev.kind = false ∧
      handle b ev s = .fatal (.unexpectedSubevent b (s.inst b).state ev.kind)) ∨
    ((s.inst b).state = .awaitAddressAck ∧ ev = .ack ∧ handle b ev s = .done (ackAddress b s)) ∨
    ((s.inst b).state = .awaitRegisterAck ∧ ev = .ack ∧ handle b ev s = .done (ackRegister b s)) ∨
    ((s.inst b).state = .awaitReadRestartAck ∧ ev = .ack ∧ s.params.READ_ADDR_ACK = .advance ∧
      handle b ev s = .done (s.goto b .receivingData)) ∨
    ((s.inst b).state = .writingData ∧ ev = .ack ∧ handle b ev s = withDataByte b s (sendByte b s)) ∨
    (((s.inst b).state = .awaitReadRestartAck ∨ (s.inst b).state = .receivingData) ∧
      ∃ v, ev = .rx v ∧ handle b ev s = withDataByte b s (receiveByte b v s)) ∨
    ((s.inst b).state = .awaitStop ∧ ev = .stop ∧ handle b ev s = finishTransaction b s) := by
  cases hst : (s.inst b).state <;> cases ev <;> cases hr : s.params.READ_ADDR_ACK <;>
    simp [handle, hst, hr, expects, unexpected, SubEvent.kind, ackReadRestart]

/-! ### The operations of the state machine once their checks have passed (rules R160 and R127) -/

theorem execXstart_passed {s : State} {bus : BitVec 2} {mode : Mode} {paddr : BitVec 7} {raddr : Byte}
    {count : BitVec 3} {evid : BitVec 5} (h : s.HALT = false)
    (hw : (Instr.xstart bus mode paddr raddr count evid).wellFormed s.params = true)
    (ha : (s.inst bus).available = true) :
    exec (.xstart bus mode paddr raddr count evid) s =
      conclude .host s (startTransaction bus mode paddr raddr count evid s) := by
  simp only [Instr.wellFormed] at hw
  simp only [exec, execXstart, checked_run _ h hw, unlessBusy, if_pos ha]

theorem execXstat_passed {s : State} {bus : BitVec 2} (h : s.HALT = false)
    (hw : (Instr.xstat bus).wellFormed s.params = true) :
    exec (.xstat bus) s = accept .host (xstatWord (s.inst bus)) s := checked_run _ h hw

theorem execBufwr_passed {s : State} {bus lane : BitVec 2} {byte : Byte} (h : s.HALT = false)
    (hw : (Instr.bufwr bus lane byte).wellFormed s.params = true) (ha : (s.inst bus).available = true) :
    exec (.bufwr bus lane byte) s = accept .host 0 (s.memWrite bus lane.toNat byte) := by
  simp only [Instr.wellFormed] at hw
  simp only [exec, execBufwr, checked_run _ h hw, unlessBusy, if_pos ha]

theorem execBufrd_passed {s : State} {bus : BitVec 2} (h : s.HALT = false)
    (hw : (Instr.bufrd bus).wellFormed s.params = true) :
    exec (.bufrd bus) s = if (s.inst bus).available then accept .host (s.inst bus).buf s
      else accept .host (Config.freeWord s.drawn) { s with drawn := s.drawn + 1 } := checked_run _ h hw

/-- "the pseudocode of a handler is the whole effect of the `SUBEV` step after the dispatch" (rule R160). -/
theorem execSubev_passed {s : State} {bus : BitVec 2} {ev : SubEvent} (h : s.HALT = false)
    (hw : (Instr.subev bus ev).wellFormed s.params = true) :
    exec (.subev bus ev) s = conclude .sev s.wakeUp (handle bus ev s.wakeUp) := checked_run _ h hw

/-! ### Delivery, words and inputs (rules R244, R127, R129) -/

/-- The delivery step: nothing when it is not enabled, else the flag cleared, the Host woken, the handler run. -/
theorem deliver_cases (b : BitVec 2) (s : State) :
    (deliveryKind b s = none ∧ deliver b s = .next s) ∨
    (∃ kind, deliveryKind b s = some kind ∧
      deliver b s = concludeUnanswered ((s.setInst b ((s.inst b).clearFlag kind)).wakeUp)
        (handle b (SubEvent.ofKind kind (s.inst b).RXDATA) ((s.setInst b ((s.inst b).clearFlag kind)).wakeUp))) := by
  cases h : deliveryKind b s with
  | none => exact .inl ⟨rfl, by simp [deliver, h]⟩
  | some kind => exact .inr ⟨kind, rfl, by simp [deliver, h, dispatchSubEvent]⟩

/-- A delivery is enabled only on an existing instance of a block that is not halted. -/
theorem deliveryKind_some {b : BitVec 2} {s : State} {kind : Kind} (h : deliveryKind b s = some kind) :
    s.HALT = false ∧ b.toNat < s.params.NBUS ∧ leastKind (s.inst b).deliverable = some kind := by
  unfold deliveryKind at h
  split at h
  · cases h
  · split at h
    · exact ⟨by simpa using ‹¬s.HALT = true›, by simpa [busInRange] using ‹busInRange s.params b = true›, h⟩
    · cases h

/-- A word on a port: refused as halted or malformed, or executed. -/
theorem takeWord_cases (p : Port) (w : Word) (s : State) :
    (takeWord p w s = .next (s.refuse p (if s.HALT then .halted else .malformed)) ∧
      ¬ ∃ i, decode w = .ok i ∧ i.port = p) ∨
    (∃ i, decode w = .ok i ∧ i.port = p ∧ takeWord p w s = exec i s) := by
  cases h : decode w with
  | error e => exact .inl ⟨by simp [takeWord, h], by simp⟩
  | ok i =>
    by_cases hp : i.port = p
    · exact .inr ⟨i, rfl, hp, by simp [takeWord, h, hp]⟩
    · exact .inl ⟨by simp [takeWord, h, hp], by simp [hp]⟩

/-- The input taken is one of the inputs, is not held, and everything before it is held and stays. -/
theorem nextInput_some {asleep : Bool} {inputs rest : List Input} {i : Input}
    (h : nextInput asleep inputs = some (i, rest)) :
    ∃ before after, inputs = before ++ i :: after ∧ rest = before ++ after ∧
      i.held asleep = false ∧ ∀ j ∈ before, Input.held asleep j = true := by
  induction inputs generalizing rest with
  | nil => simp [nextInput] at h
  | cons j tail ih =>
    unfold nextInput at h
    split at h
    · next hheld =>
      cases hn : nextInput asleep tail with
      | none => simp [hn] at h
      | some found =>
        simp [hn] at h
        obtain ⟨rfl, rfl⟩ := h
        obtain ⟨before, after, h1, h2, h3, h4⟩ := ih hn
        exact ⟨j :: before, after, by simp [h1], by simp [h2], h3, by simpa [hheld] using h4⟩
    · next hheld =>
      simp at h
      obtain ⟨rfl, rfl⟩ := h
      exact ⟨[], tail, rfl, rfl, by simpa using hheld, by simp⟩

/-- No input is taken exactly when every input is held. -/
theorem nextInput_none {asleep : Bool} {inputs : List Input} :
    nextInput asleep inputs = none ↔ ∀ j ∈ inputs, Input.held asleep j = true := by
  induction inputs with
  | nil => simp [nextInput]
  | cons j tail ih =>
    by_cases h : j.held asleep = true
    · simp [nextInput, h, ih]
    · simp [nextInput, h]

/-- The step: the block waits, or it takes one input. -/
theorem step_cases (s : State) :
    (nextInput s.isAsleep s.inputs = none ∧ step s = .next s) ∨
    (∃ i rest, nextInput s.isAsleep s.inputs = some (i, rest) ∧ step s = takeInput i { s with inputs := rest }) := by
  cases h : nextInput s.isAsleep s.inputs with
  | none => exact .inl ⟨rfl, by simp [step, advance, h]⟩
  | some found => exact .inr ⟨found.1, found.2, rfl, by simp [step, advance, h]⟩

/-! ### Host programs (rule R229) -/

/-- A program after another runs as the first, then the second from where the first ended. -/
theorem HostProgram.run_andThen (p q : HostProgram) (s : State) :
    (p.andThen q).run [] s =
      match p.run [] s with
      | .next t => q.run [] t
      | .fault f => .fault f
      | .refused r => .refused r := by
  induction p generalizing s with
  | done => rfl
  | call i next ih =>
    by_cases hs : s.isAsleep = true
    · cases q <;> simp [HostProgram.andThen, HostProgram.run, takeAll, hs]
    · cases hw : takeWord .host (encode i) s with
      | next t => simpa [HostProgram.andThen, HostProgram.run, takeAll, hs, hw] using ih t.lastAnswer t
      | fault f => simp [HostProgram.andThen, HostProgram.run, takeAll, hs, hw]
      | refused r => simp [HostProgram.andThen, HostProgram.run, takeAll, hs, hw]

/-- A call of an awake Host, nothing happening meanwhile: the word is taken, and the program goes on by its answer. -/
theorem HostProgram.run_call {i : Instr} {next : Response → HostProgram} {s t : State} (ha : s.isAsleep = false)
    (hw : takeWord .host (encode i) s = .next t) :
    (HostProgram.call i next).run [] s = (next t.lastAnswer).run [] t := by
  simp [HostProgram.run, takeAll, ha, hw]

end Sys2Proof.Machine
end

