-- ==== Sys2Proof/Laws/PerInstr.lean ====
section
/-! SUPPORT. Laws.PerInstr: one fact about the encoding, proved operation by operation: the word of an operation has the
opcode and the function field of the operation's row (rule R112). -/

namespace Sys2Proof.Laws

/-- The `op` column of rule R112. -/
def opcodeOf : Instr → BitVec 4
  | .xstart _ _ _ _ _ _ => 0x1
  | .xstat _ => 0x2
  | .bufwr _ _ _ => 0x3
  | .bufrd _ => 0x4
  | .evpost _ => 0x5
  | .evclr _ => 0x6
  | .evpend => 0x7
  | .emblk _ => 0x8
  | .emunblk _ => 0x9
  | .emcda => 0xA
  | .emsleep => 0xB
  | .subev _ _ => 0xC
  | .irqraise _ _ => 0xD
  | .irqen _ _ => 0xD
  | .irqstat _ => 0xD
  | .fstat => 0xE
  | .wake => 0xE

/-- The word of `i` has the opcode of `i`'s row. -/
def HasOpcode.Statement (i : Instr) : Prop := field (encode i) 28 4 = opcodeOf i

theorem HasOpcode.xstart (bus : BitVec 2) (mode : Mode) (paddr : BitVec 7) (raddr : Byte) (count : BitVec 3)
    (evid : BitVec 5) : HasOpcode.Statement (.xstart bus mode paddr raddr count evid) := by
  have cut := @extractLsb'_append_cases
  simp [HasOpcode.Statement, opcodeOf, encode, field, cut]

theorem HasOpcode.xstat (bus : BitVec 2) : HasOpcode.Statement (.xstat bus) := by
  have cut := @extractLsb'_append_cases
  simp [HasOpcode.Statement, opcodeOf, encode, field, cut]

theorem HasOpcode.bufwr (bus lane : BitVec 2) (byte : Byte) : HasOpcode.Statement (.bufwr bus lane byte) := by
  have cut := @extractLsb'_append_cases
  simp [HasOpcode.Statement, opcodeOf, encode, field, cut]

theorem HasOpcode.bufrd (bus : BitVec 2) : HasOpcode.Statement (.bufrd bus) := by
  have cut := @extractLsb'_append_cases
  simp [HasOpcode.Statement, opcodeOf, encode, field, cut]

theorem HasOpcode.evpost (evid : BitVec 5) : HasOpcode.Statement (.evpost evid) := by
  have cut := @extractLsb'_append_cases
  simp [HasOpcode.Statement, opcodeOf, encode, field, cut]

theorem HasOpcode.evclr (evid : BitVec 5) : HasOpcode.Statement (.evclr evid) := by
  have cut := @extractLsb'_append_cases
  simp [HasOpcode.Statement, opcodeOf, encode, field, cut]

theorem HasOpcode.evpend : HasOpcode.Statement .evpend := rfl

theorem HasOpcode.emblk (level : BitVec 3) : HasOpcode.Statement (.emblk level) := by
  have cut := @extractLsb'_append_cases
  simp [HasOpcode.Statement, opcodeOf, encode, field, cut]

theorem HasOpcode.emunblk (level : BitVec 3) : HasOpcode.Statement (.emunblk level) := by
  have cut := @extractLsb'_append_cases
  simp [HasOpcode.Statement, opcodeOf, encode, field, cut]

theorem HasOpcode.emcda : HasOpcode.Statement .emcda := rfl

theorem HasOpcode.emsleep : HasOpcode.Statement .emsleep := rfl

theorem HasOpcode.subev (bus : BitVec 2) (ev : SubEvent) : HasOpcode.Statement (.subev bus ev) := by
  have cut := @extractLsb'_append_cases
  simp [HasOpcode.Statement, opcodeOf, encode, field, cut]

theorem HasOpcode.irqraise (bus : BitVec 2) (ev : SubEvent) : HasOpcode.Statement (.irqraise bus ev) := by
  have cut := @extractLsb'_append_cases
  simp [HasOpcode.Statement, opcodeOf, encode, field, cut]

theorem HasOpcode.irqen (bus : BitVec 2) (ien : BitVec 3) : HasOpcode.Statement (.irqen bus ien) := by
  have cut := @extractLsb'_append_cases
  simp [HasOpcode.Statement, opcodeOf, encode, field, cut]

theorem HasOpcode.irqstat (bus : BitVec 2) : HasOpcode.Statement (.irqstat bus) := by
  have cut := @extractLsb'_append_cases
  simp [HasOpcode.Statement, opcodeOf, encode, field, cut]

theorem HasOpcode.fstat : HasOpcode.Statement .fstat := rfl

theorem HasOpcode.wake : HasOpcode.Statement .wake := rfl

end Sys2Proof.Laws
end

