-- ==== Sys2Proof/Tests/Slice0.lean ====
section
/-! SUPPORT. Tests.Slice0: the smoke test of WellFormed, the words of 95_test_vectors.md V30-1 and V30-2, single steps
with the answers of its vectors, and, for each obligation with hypotheses, a state and operands that meet them. -/

namespace Sys2Proof.Tests

open Sys2Proof.Machine

/-! ### Small states -/

/-- Reset with instance 0 in a transaction (peripheral 0x55, register 0x13, event 1) and its vote taken. -/
def mid (st : BtsmState) (m : Mode) (rem : BitVec 3) : State :=
  (State.reset.setVote 2 1).setInst 0
    { BusInstance.reset with
      state := st, available := false, mode := m, paddr := 0x55, raddr := 0x13, rem := rem, evid := 1 }

/-- Instance 1 beside it in the same transaction, both votes taken. -/
def both (st : BtsmState) (m : Mode) (rem : BitVec 3) : State :=
  ((mid st m rem).setVote 2 2).setInst 1 ((mid st m rem).inst 0)

/-- Reset with `VOTE[l] = v`. -/
def voted (l : BitVec 3) (v : BitVec 8) : State := State.reset.setVote l v

/-- Reset after fatal error 2 on level 4 (vector V40-8). -/
def halted : State := State.reset.raiseFatal (.voteUnderflow 4)

/-- Reset, asleep at level 4, with inputs to come. -/
def sleeping (inputs : List Input) : State := { State.reset with PWR := .asleep 4, inputs := inputs }

/-- The state an outcome goes on to, if it does. -/
def nextOf : Host.Outcome State Fault Refusal → Option State
  | .next t => some t
  | .fault _ => none
  | .refused _ => none

/-- The last response of the state an outcome goes on to: `ok` and `data`. -/
def answerOf (o : Host.Outcome State Fault Refusal) : Option (Bool × Word) :=
  (nextOf o).bind fun t => t.resp.getLast?.map fun r => (r.2.ok, r.2.data)

/-! ### WellFormed refuses an operand out of range (rule R103), one check at a time -/

theorem test_wf_bus : (Instr.xstat 2).wellFormed Params.default = false := by decide
theorem test_wf_bus_bufwr : (Instr.bufwr 2 0 0).wellFormed Params.default = false := by decide
theorem test_wf_bus_bufrd : (Instr.bufrd 3).wellFormed Params.default = false := by decide
theorem test_wf_bus_subev : (Instr.subev 2 .ack).wellFormed Params.default = false := by decide
theorem test_wf_bus_irqraise : (Instr.irqraise 2 .ack).wellFormed Params.default = false := by decide
theorem test_wf_bus_irqen : (Instr.irqen 2 7).wellFormed Params.default = false := by decide
theorem test_wf_bus_irqstat : (Instr.irqstat 2).wellFormed Params.default = false := by decide
theorem test_wf_bus_xstart : (Instr.xstart 2 .read 0x55 0 1 0).wellFormed Params.default = false := by decide
theorem test_wf_count_zero : (Instr.xstart 0 .read 0x55 0 0 0).wellFormed Params.default = false := by decide
theorem test_wf_count_five : (Instr.xstart 0 .read 0x55 0 5 0).wellFormed Params.default = false := by decide
theorem test_wf_evid_xstart :
    (Instr.xstart 0 .read 0x55 0 1 16).wellFormed { Params.default with EVW := 16 } = false := by decide
theorem test_wf_evid : (Instr.evpost 16).wellFormed { Params.default with EVW := 16 } = false := by decide
theorem test_wf_evid_clr : (Instr.evclr 16).wellFormed { Params.default with EVW := 16 } = false := by decide
theorem test_wf_level : (Instr.emblk 5).wellFormed Params.default = false := by decide
theorem test_wf_level_unblock : (Instr.emunblk 5).wellFormed Params.default = false := by decide
theorem test_wf_lane : (Instr.bufwr 0 3 0).wellFormed { Params.default with NMAX := 3 } = false := by decide
theorem test_wf_accepts : (Instr.xstart 1 .write 0x7F 0xFF 4 31).wellFormed Params.default = true := by decide

/-! ### Decoding: the words of vector V30-1, every constructor -/

theorem test_decode_xstart : decodeTableWord 32 0x13544D01 = some (.xstart 0 .read 0x55 0x13 2 1) := by decide
theorem test_decode_xstart_write : decodeTableWord 32 0x15542C83 = some (.xstart 1 .write 0x55 0x0B 1 3) := by decide
theorem test_decode_xstat : decodeTableWord 32 0x24000000 = some (.xstat 1) := by decide
theorem test_decode_bufwr : decodeTableWord 32 0x330000AA = some (.bufwr 0 3 0xAA) := by decide
theorem test_decode_bufrd : decodeTableWord 32 0x44000000 = some (.bufrd 1) := by decide
theorem test_decode_evpost : decodeTableWord 32 0x5000001F = some (.evpost 31) := by decide
theorem test_decode_evclr : decodeTableWord 32 0x6000001F = some (.evclr 31) := by decide
theorem test_decode_evpend : decodeTableWord 32 0x70000000 = some .evpend := by decide
theorem test_decode_emblk : decodeTableWord 32 0x80000003 = some (.emblk 3) := by decide
theorem test_decode_emunblk : decodeTableWord 32 0x90000003 = some (.emunblk 3) := by decide
theorem test_decode_emcda : decodeTableWord 32 0xA0000000 = some .emcda := by decide
theorem test_decode_emsleep : decodeTableWord 32 0xB0000000 = some .emsleep := by decide
theorem test_decode_subev : decodeTableWord 32 0xC100000A = some (.subev 0 (.rx 0x0A)) := by decide
theorem test_decode_subev_stop : decodeTableWord 32 0xC6000000 = some (.subev 1 .stop) := by decide
theorem test_decode_irqraise : decodeTableWord 32 0xD44000C3 = some (.irqraise 1 (.rx 0xC3)) := by decide
theorem test_decode_irqraise_stop : decodeTableWord 32 0xD0800000 = some (.irqraise 0 .stop) := by decide
theorem test_decode_irqen : decodeTableWord 32 0xD1000006 = some (.irqen 0 0b110) := by decide
theorem test_decode_irqstat : decodeTableWord 32 0xD6000000 = some (.irqstat 1) := by decide
theorem test_decode_fstat : decodeTableWord 32 0xE0000000 = some .fstat := by decide
theorem test_decode_wake : decodeTableWord 32 0xE1000000 = some .wake := by decide

theorem test_encode_xstart : encode (.xstart 1 .read 0x55 0x2C 3 6) = 0x1754B186 := by decide
theorem test_encode_irqraise : encode (.irqraise 1 .stop) = 0xD4800000 := by decide

/-! ### Refused words (vector V30-2): which of the five shapes each breaks -/

theorem test_refuse_op_zero : decode 0x00000000 = .error .reservedOpcode := by decide
theorem test_refuse_op_f : decode 0xFFFFFFFF = .error .reservedOpcode := by decide
theorem test_refuse_fn_d : decode 0xD3000000 = .error .reservedFunction := by decide
theorem test_refuse_fn_e : decode 0xE2000000 = .error .reservedFunction := by decide
theorem test_refuse_reserved_bit : decode 0x135400A0 = .error .reservedBits := by decide
theorem test_refuse_kind : decode 0xC3000000 = .error .reservedKind := by decide
theorem test_refuse_kind_irq : decode 0xD0C00000 = .error .reservedKind := by decide
theorem test_refuse_stray_byte : decode 0xC0000001 = .error .strayByte := by decide

/-! ### Words through the ports (vectors V30-2, V30-3, V40-8, V40-10) -/

theorem test_step_malformed : answerOf (step { State.reset with inputs := [.word .host 0] }) = some (false, 1) := by
  decide
theorem test_step_wrong_port :
    answerOf (step { State.reset with inputs := [.word .host 0xC0000000] }) = some (false, 1) := by decide
theorem test_step_shape_before_range :
    answerOf (step { State.reset with inputs := [.word .host 0x1B5400A0] }) = some (false, 1) := by decide
theorem test_step_range : answerOf (step { State.reset with inputs := [.word .host 0x13540280] }) = some (false, 2) := by
  decide
theorem test_step_range_before_busy :
    answerOf (step { mid .awaitAddressAck .read 1 with inputs := [.word .host 0x13540000] }) = some (false, 2) := by
  decide
theorem test_step_busy :
    answerOf (step { mid .awaitAddressAck .read 1 with inputs := [.word .host 0x13548080] }) = some (false, 3) := by
  decide
theorem test_step_halted_before_malformed :
    answerOf (step { halted with inputs := [.word .host 0] }) = some (false, 4) := by decide
theorem test_step_halted_fstat :
    answerOf (step { halted with inputs := [.word .host 0xE0000000] }) = some (true, 0x00000405) := by decide
theorem test_step_runs_fetch_word : answerOf (step (State.reset.withFetchWord 32 0x13544D01)) = some (true, 0) := by
  decide
theorem test_step_waits : step State.reset = .next State.reset := by rfl

/-! ### One step of each operation -/

theorem test_emblk_bound : answerOf (exec (.emblk 1) (voted 1 5)) = some (false, 5) := by decide
theorem test_emblk_last : (nextOf (exec (.emblk 1) (voted 1 4))).map (fun t => t.vote 1) = some 5 := by decide
theorem test_emunblk_zero : (nextOf (exec (.emunblk 4) State.reset)).map fstatWord = some 0x00000405 := by decide
theorem test_emunblk : (nextOf (exec (.emunblk 3) (voted 3 2))).map (fun t => t.vote 3) = some 1 := by decide
theorem test_emcda_none : answerOf (exec .emcda State.reset) = some (true, 4) := by decide
theorem test_emcda_least : answerOf (exec .emcda ((voted 3 1).setVote 1 1)) = some (true, 1) := by decide
theorem test_emsleep :
    (nextOf (exec .emsleep (voted 2 1))).map (fun t => (t.PWR, t.sleepReq)) = some (.asleep 2, [2]) := by decide
theorem test_xstart :
    (nextOf (exec (.xstart 0 .read 0x55 0x13 2 1) State.reset)).map (fun t => (xstatWord (t.inst 0), t.out 0))
      = some (0x000000A2, [.start, .txdata 0xAA]) := by decide
theorem test_xstart_bound :
    (nextOf (exec (.xstart 0 .read 0x55 0x20 1 0) (voted 2 5))).map fstatWord = some 0x00000207 := by decide
theorem test_xstat : answerOf (exec (.xstat 0) (mid .receivingData .read 1)) = some (true, 0x0000009A) := by decide
theorem test_bufwr : (nextOf (exec (.bufwr 0 3 0xAA) State.reset)).map (fun t => (t.inst 0).buf) = some 0xAA000000 := by
  decide
theorem test_bufrd :
    answerOf (exec (.bufrd 1) (State.reset.setInst 1 { BusInstance.reset with buf := 0x00123456 }))
      = some (true, 0x00123456) := by decide
theorem test_evpost : (nextOf (exec (.evpost 31) State.reset)).map (fun t => t.EV) = some 0x80000000 := by decide
theorem test_evclr :
    (nextOf (exec (.evclr 31) { State.reset with EV := 0x80000001 })).map (fun t => t.EV) = some 1 := by decide
theorem test_evpend : answerOf (exec .evpend { State.reset with EV := 0x80000001 }) = some (true, 0x80000001) := by
  decide
theorem test_subev_receives :
    (nextOf (exec (.subev 0 (.rx 0x0A)) (mid .receivingData .read 1))).map
        (fun t => ((t.inst 0).buf, (t.inst 0).state, t.out 0)) = some (0x0000000A, .awaitStop, [.nack, .stop]) := by
  decide
theorem test_subev_unexpected :
    (nextOf (exec (.subev 1 .stop) State.reset)).map fstatWord = some 0x00002203 := by decide
theorem test_irqraise : (nextOf (exec (.irqraise 0 (.rx 0x7F)) State.reset)).map (fun t => irqstatWord (t.inst 0))
    = some 0x00007F3A := by decide
theorem test_irqen : (nextOf (exec (.irqen 1 0b010) State.reset)).map (fun t => irqstatWord (t.inst 1))
    = some 0x00000010 := by decide
theorem test_irqstat :
    answerOf (exec (.irqstat 0) (State.reset.setInst 0 { BusInstance.reset with IF := 0b011, RXDATA := 0x7F }))
      = some (true, 0x00007F3B) := by decide
theorem test_fstat : answerOf (exec .fstat State.reset) = some (true, 0) := by decide
theorem test_wake : (nextOf (exec .wake (sleeping []))).map (fun t => t.PWR) = some .awake := by decide

/-- Vector V43-2: of three pending flags `ACK` is delivered, and no response is given. -/
theorem test_delivery_priority :
    (nextOf (deliver 0 ((mid .awaitAddressAck .read 1).setInst 0
        { (mid .awaitAddressAck .read 1).inst 0 with IF := 0b111, RXDATA := 9 }))).map
      (fun t => (irqstatWord (t.inst 0), (t.inst 0).state, t.resp)) = some (0x0000093E, .awaitRegisterAck, []) := by
  decide

/-- Vector V41-13: with `READ_ADDR_ACK = fatal` the third acknowledge is one more fatal cell. -/
theorem test_restart_ack_fatal :
    (nextOf (exec (.subev 0 .ack)
      { mid .awaitReadRestartAck .read 2 with
        params := { Params.default with READ_ADDR_ACK := .fatal } })).map fstatWord = some 0x00000C03 := by decide

/-- Vector V60-2: a fatal `SUBEV` wakes the Host. -/
theorem test_fatal_subev_wakes :
    (nextOf (exec (.subev 0 .stop) { mid .awaitAddressAck .read 1 with PWR := .asleep 2 })).map
      (fun t => (fstatWord t, t.PWR)) = some (0x00000603, .awake) := by decide

/-- Rules R272 and R320: the record of `HALTOUT` through a fatal error and a reset. -/
theorem test_haltout_asserted : (nextOf (exec (.emunblk 4) State.reset)).map (fun t => t.haltOut) = some [⟨true, 2, 4⟩] := by
  decide
theorem test_haltout_deasserted : halted.applyReset.haltOut = [⟨true, 2, 4⟩, ⟨false, 0, 0⟩] ∧
    State.reset.applyReset.haltOut = [] := by decide

/-! ### The drain pass (vectors V42-4 to V42-6) -/

/-- A handler that looks at the instance's state and, if it is available, reads its buffer. -/
def readsBuffer : HostProgram :=
  .call (.xstat 0) (fun r => if r.data.getLsbD 0 then .call (.bufrd 0) (fun _ => .done) else .done)

/-- Vector V42-4: the words of the pass, as their answers show them. -/
theorem test_drain :
    (nextOf ((drain Params.default (fun _ => .done)).run [] { State.reset with EV := 0x60 })).map
      (fun t => (t.EV, t.resp.map (fun a => a.2.data))) = some (0, [0x60, 0, 0]) := by decide

/-- Vector V42-5: bus 1 finishes during handler(1); its bit survives the pass. -/
theorem test_drain_keeps_later_event :
    let s := { (State.reset.setVote 2 1).setInst 1
        { BusInstance.reset with state := .awaitStop, available := false, evid := 6 } with EV := 0x2 }
    (nextOf ((drain Params.default (fun _ => readsBuffer)).run [[], [.word .sev 0xC6000000]] s)).map
      (fun t => t.EV) = some 0x40 := by decide

/-- Vector V42-6: the event is posted again during its own handler; the clear takes both. -/
theorem test_drain_loses_repost :
    (nextOf ((drain Params.default (fun _ => readsBuffer)).run [[], [.word .host 0x50000001]]
      { State.reset with EV := 0x2 })).map (fun t => t.EV) = some 0 := by decide

/-- Rule R344: an event posted between the test and the sleep is slept through. -/
theorem test_main_loop_sleeps_with_event_pending :
    (nextOf ((mainLoopTurn Params.default (fun _ => .done)).run [[], [], [.word .host 0x50000001]] State.reset)).map
      (fun t => (t.EV, t.PWR)) = some (2, .asleep 4) := by decide

/-- Whatever the state of a running block, its two reads are answered and leave `EV` alone. -/
theorem readsBuffer_keeps (u : State) (hh : u.HALT = false) (hp : u.PWR = .awake) :
    ∃ v, readsBuffer.run [] u = .next v ∧ v.HALT = false ∧ v.PWR = .awake ∧ v.params = u.params ∧ v.EV = u.EV := by
  have stat : ∃ ok d, takeWord .host (encode (.xstat 0)) u = .next (u.respond .host ok d) := by
    rw [show takeWord .host (encode (.xstat 0)) u = execXstat 0 u from rfl]
    rcases checked_cases .host (busInRange u.params 0) u (accept .host (xstatWord (u.inst 0)) u) with h | h | h
    · simp [hh] at h
    · exact ⟨_, _, h.2.2⟩
    · exact ⟨_, _, h.2.2⟩
  obtain ⟨ok, d, hx⟩ := stat
  have awake : ∀ v : State, v.PWR = .awake → v.isAsleep = false := fun v h => by simp [State.isAsleep, h]
  rw [readsBuffer, HostProgram.run_call (awake u hp) hx]
  split
  · have read : ∃ v, takeWord .host (encode (.bufrd 0)) (u.respond .host ok d) = .next v ∧ v.HALT = false ∧
        v.PWR = .awake ∧ v.params = u.params ∧ v.EV = u.EV := by
      rw [show takeWord .host (encode (.bufrd 0)) (u.respond .host ok d) = execBufrd 0 (u.respond .host ok d) from rfl,
        execBufrd]
      unfold checked accept
      split
      · exact ⟨_, rfl, hh, hp, rfl, rfl⟩
      · split
        · split <;> exact ⟨_, rfl, hh, hp, rfl, rfl⟩
        · exact ⟨_, rfl, hh, hp, rfl, rfl⟩
    obtain ⟨v, hv, keeps⟩ := read
    rw [HostProgram.run_call (awake (u.respond .host ok d) hp) hv]
    exact ⟨v, rfl, keeps⟩
  · exact ⟨_, rfl, hh, hp, rfl, rfl⟩

/-- Expansion of `BUFSET` and of the two transfers (rule R132). -/
theorem test_bufset : bufset 0 0xBEEF 2 = [.bufwr 0 1 0xBE, .bufwr 0 0 0xEF] := by decide
theorem test_line_text : lineText (.word .host 0x34000011) = "H BUFWR b1 l0 17" := by decide
theorem test_xfer_wr : xferWr 1 1 = [.subev 1 .ack, .subev 1 .ack, .subev 1 .stop] := by decide
theorem test_waitavail_ends : waitavailNext 0 ⟨true, 0x0000008D⟩ = none := by decide

/-! ### States with the invariant -/

/-- A transaction of instance 0 in flight, whatever is to come, has the invariant. -/
theorem mid_inv (events : Word) (inputs : List Input) :
    { mid .awaitAddressAck .read 2 with EV := events, inputs := inputs }.Inv where
  params := show Params.default.Valid by decide
  insts := by
    have hbuf : ∀ i, 8 * 4 ≤ i → (0#32).getLsbD i = false := fun i _ => by simp
    have busy : ((mid .awaitAddressAck .read 2).inst 0).Inv Params.default :=
      ⟨by decide, by decide, by decide, by decide, by decide, by decide, hbuf⟩
    have idle : BusInstance.reset.Inv Params.default :=
      ⟨by decide, by decide, by decide, by decide, by decide, by decide, hbuf⟩
    intro b
    by_cases hb : b = 0
    · subst hb; exact busy
    · have h : (mid .awaitAddressAck .read 2).inst b = BusInstance.reset := by
        revert b; decide
      show ((mid .awaitAddressAck .read 2).inst b).Inv Params.default
      rw [h]; exact idle
  absent := by
    show ∀ b : BitVec 2, 2 ≤ b.toNat → (mid .awaitAddressAck .read 2).inst b = _ ∧
      (mid .awaitAddressAck .read 2).out b = []
    decide
  votes := by
    show ∀ l, (mid .awaitAddressAck .read 2).vote l ≤ 5
    decide
  absentVotes := by
    show ∀ l : BitVec 3, 5 ≤ l.toNat → (mid .awaitAddressAck .read 2).vote l = 0
    decide
  events := fun i hi => BitVec.getLsbD_of_ge events i hi
  asleep := fun l h => by cases h
  notHalted := fun _ => ⟨rfl, rfl⟩
  halted := fun h => by cases h
  haltedAwake := fun _ => rfl
  haltOutput := rfl

/-- Its one vote covers its one transaction. -/
theorem mid_covers (inputs : List Input) : { mid .awaitAddressAck .read 2 with inputs := inputs }.VotesCover := by
  show (mid .awaitAddressAck .read 2).inFlight ≤ ((mid .awaitAddressAck .read 2).vote 2).toNat
  decide

/-! ### Every obligation's hypotheses are met somewhere -/

theorem test_meets_EncodeInvertsDecode : decode 0x13544D01 = .ok (.xstart 0 .read 0x55 0x13 2 1) := by rfl

theorem test_meets_StepRunsTheDecodedOperation :
    let s := { State.reset with inputs := [.word .host 0x80000003] }
    s.inputs = .word .host 0x80000003 :: [] ∧ s.PWR = .awake ∧ decode 0x80000003 = .ok (.emblk 3) ∧
      (Instr.emblk 3).port = .host := ⟨rfl, rfl, rfl, rfl⟩

theorem test_meets_HostWordsWaitWhileTheHostIsAsleep :
    (sleeping [.word .host 0x70000000]).PWR = .asleep 4 ∧
    (∀ j ∈ [Input.word .host 0x70000000], ∃ w, j = .word .host w) ∧
    (∀ w, Input.word .env 0xE1000000 ≠ .word .host w) ∧
    nextOf (step (sleeping [.word .host 0x70000000])) = some (sleeping [.word .host 0x70000000]) ∧
    (nextOf (step (sleeping [.word .host 0x70000000, .word .env 0xE1000000]))).map (fun t => (t.PWR, t.inputs)) =
      some (.awake, [.word .host 0x70000000]) :=
  ⟨rfl, by simp, by simp, by decide, by decide⟩

theorem test_meets_WordsAreCheckedInOrder_halted :
    halted.HALT = true ∧ ¬ (Port.env = .host ∧ (0xE0000000 : Word) = 0xE0000000) := by decide

theorem test_meets_WordsAreCheckedInOrder_malformed :
    State.reset.HALT = false ∧ ¬ SelectsRowOn .env 0xD1000007 ∧ ∀ i, decode 0xF0000000 ≠ .ok i :=
  ⟨rfl, by decide, fun _ h => by cases h⟩

theorem test_meets_WordsAreCheckedInOrder_range :
    decode 0x13540000 = .ok (.xstart 0 .read 0x55 0 0 0) ∧ SelectsRowOn .host 0x13540000 ∧
    (Instr.xstart 0 .read 0x55 0 0 0).wellFormed State.reset.params = false := ⟨rfl, by decide, rfl⟩

theorem test_meets_WordsAreCheckedInOrder_busy :
    let s := mid .awaitAddressAck .read 1
    s.HALT = false ∧ decode 0x30000022 = .ok (.bufwr 0 0 0x22) ∧ SelectsRowOn .host 0x30000022 ∧
      (Instr.bufwr 0 0 0x22).wellFormed s.params = true ∧ gatedBy (.bufwr 0 0 0x22) = some 0 ∧
      (s.inst 0).available = false := ⟨rfl, rfl, by decide, rfl, rfl, rfl⟩

theorem test_meets_WordsAreCheckedInOrder_executed :
    let s := { halted with inputs := [.word .host 0xE0000000] }
    decode 0xE0000000 = .ok .fstat ∧ SelectsRowOn .host 0xE0000000 ∧ Instr.fstat.wellFormed s.params = true ∧ gatedBy .fstat = none ∧
      ∃ t, step s = .next t := ⟨rfl, by decide, rfl, rfl, _, rfl⟩

theorem test_meets_ResetStepRestoresEveryItem :
    { mid .awaitStop .read 0 with inputs := [.reset] }.inputs = .reset :: [] := rfl

theorem test_meets_EveryStepKeepsInv :
    ∃ s t : State, s.Inv ∧ step s = .next t ∧ (t.inst 0).state = .awaitRegisterAck :=
  ⟨_, _, mid_inv 0 [.word .sev 0xC0000000], rfl, by decide⟩

theorem test_meets_EveryStepGoesOnFromInv : { mid .awaitAddressAck .read 2 with inputs := [.deliver 0] }.Inv :=
  mid_inv 0 _

theorem test_meets_TransactionInFlightKeepsItsDescriptor :
    let s := { mid .awaitAddressAck .read 2 with inputs := [.word .sev 0xC0000000] }
    (s.inst 0).available = false ∧ (∃ t, exec (.xstart 0 .write 0x11 0x22 1 3) s = .next t) ∧
      (∃ t, step s = .next t) ∧ s.taken ≠ some .reset := ⟨rfl, ⟨_, rfl⟩, ⟨_, rfl⟩, by decide⟩

theorem test_meets_VotesKeepCoveringTransactions :
    let s := { mid .awaitAddressAck .read 2 with inputs := [.word .host 0x17548080] }
    s.Inv ∧ s.VotesCover ∧ s.taken ≠ some (.word .host (encode (.emunblk 2))) ∧ ∃ t, step s = .next t :=
  ⟨mid_inv 0 _, mid_covers _, by decide, _, rfl⟩

/-- The release of a vote the Host does hold: two votes, one transaction. -/
theorem test_meets_VotesKeepCoveringTransactions_release :
    let s := { (mid .awaitAddressAck .read 2).setVote 2 2 with inputs := [.word .host 0x90000002] }
    s.taken = some (.word .host (encode (.emunblk 2))) ∧ s.inFlight < (s.vote 2).toNat := by decide

theorem test_meets_DeepestAllowedIsBoundedInFlight :
    let s := mid .awaitAddressAck .read 2
    s.params.Valid ∧ s.VotesCover ∧ 0 < s.inFlight := ⟨by decide, mid_covers [], by decide⟩

theorem test_meets_EveryTransactionCanBeFinished :
    let s := { mid .awaitAddressAck .read 2 with inputs := [] }
    s.Inv ∧ s.HALT = false ∧ s.VotesCover ∧ (s.inst 0).available = false := ⟨mid_inv 0 _, rfl, mid_covers _, rfl⟩

theorem test_meets_OnlyTheNamedOperationsWrite :
    ∃ t, exec (.subev 0 .stop) (mid .awaitStop .read 0) = .next t ∧ (t.inst 0).available = true ∧ t.EV = 2 ∧
      t.vote 2 = 0 := ⟨_, rfl, by decide, by decide, by decide⟩

/-- The same by a delivery. -/
theorem test_meets_OnlyTheNamedOperationsWrite_delivery :
    let s := (mid .awaitStop .read 0).setInst 0 { (mid .awaitStop .read 0).inst 0 with IF := 0b100 }
    ∃ t, deliver 0 s = .next t ∧ (t.inst 0).available = true ∧ t.EV = 2 ∧ t.vote 2 = 0 :=
  ⟨_, rfl, by decide, by decide, by decide⟩

theorem test_meets_OnlyTheListedOperationsRaise :
    State.reset.HALT = false ∧ ∃ t, exec (.emunblk 4) State.reset = .next t ∧ t.HALT = true := ⟨rfl, _, rfl, by decide⟩

theorem test_meets_HaltedBlockNeverChanges :
    let s := { halted with inputs := [.word .env 0xE1000000] }
    s.HALT = true ∧ (∃ t, step s = .next t) ∧ s.taken ≠ some .reset := ⟨rfl, ⟨_, rfl⟩, by decide⟩

theorem test_meets_OnlyDeliveryAndWakeWakeTheHost :
    let s := sleeping [.word .env 0xE1000000]
    s.PWR = .asleep 4 ∧ ∃ t, step s = .next t ∧ t.PWR = .awake := ⟨rfl, _, rfl, by decide⟩

theorem test_meets_EmblkAddsOneVote :
    (voted 4 4).HALT = false ∧ (4#3).toNat < (voted 4 4).params.NLEVELS ∧
      (voted 4 4).vote 4 < (voted 4 4).params.VOTE_MAX := by decide

theorem test_meets_EmblkAtTheBoundIsFatal :
    (voted 4 5).HALT = false ∧ (4#3).toNat < (voted 4 5).params.NLEVELS ∧
      (voted 4 5).vote 4 = (voted 4 5).params.VOTE_MAX := by decide

theorem test_meets_EmunblkTakesOneVote :
    (voted 0 1).HALT = false ∧ (0#3).toNat < (voted 0 1).params.NLEVELS ∧ (voted 0 1).vote 0 ≠ 0 := by decide

theorem test_meets_EmunblkAtZeroIsFatal :
    State.reset.HALT = false ∧ (4#3).toNat < State.reset.params.NLEVELS ∧ State.reset.vote 4 = 0 := by decide

theorem test_meets_CdaIsTheLeastLevelHeld :
    (voted 4 1).params.Valid ∧ (∃ l : BitVec 3, l.toNat < (voted 4 1).params.NLEVELS ∧ 0 < (voted 4 1).vote l) ∧
      ∀ l : BitVec 3, l.toNat < State.reset.params.NLEVELS → State.reset.vote l = 0 :=
  ⟨by decide, ⟨4, by decide, by decide⟩, by decide⟩

theorem test_meets_not_halted : State.reset.HALT = false := rfl

theorem test_meets_BalancedCallsRestoreTheVotes :
    let ops : List Instr := [.emblk 3, .emblk 1, .emunblk 3, .emunblk 1]
    (∀ i ∈ ops, ∃ l, i = .emblk l ∨ i = .emunblk l) ∧
    (∀ l : BitVec 3, ops.count (.emblk l) = ops.count (.emunblk l)) ∧
    ∃ t, execAll ops State.reset = .next t ∧ t.HALT = false :=
  ⟨by simp, by decide, _, rfl, by decide⟩

theorem test_meets_XstartBeginsATransaction :
    let s := voted 2 4
    s.HALT = false ∧ (1#2).toNat < s.params.NBUS ∧ 1 ≤ (4#3).toNat ∧ (4#3).toNat ≤ s.params.NMAX ∧
      (31#5).toNat < s.params.EVW ∧ (s.inst 1).available = true ∧
      s.vote s.params.BUS_ACTIVE_LEVEL < s.params.VOTE_MAX := by decide

theorem test_meets_XstartAtTheVoteBoundIsFatal :
    let s := voted 2 5
    s.HALT = false ∧ (Instr.xstart 1 .read 0x55 0x20 1 0).wellFormed s.params = true ∧
      (s.inst 1).available = true ∧ s.vote s.params.BUS_ACTIVE_LEVEL = s.params.VOTE_MAX := by decide

theorem test_meets_instance_in_range :
    (voted 2 1).HALT = false ∧ (1#2).toNat < (voted 2 1).params.NBUS ∧ ((voted 2 1).inst 1).available = true := by
  decide

theorem test_meets_BufwrWritesOneLane :
    State.reset.HALT = false ∧ (1#2).toNat < State.reset.params.NBUS ∧ (3#2).toNat < State.reset.params.NMAX ∧
      (State.reset.inst 1).available = true := by decide

theorem test_meets_BufrdOfABusyInstanceAnswersSomeWord :
    let s := mid .awaitAddressAck .read 1
    s.HALT = false ∧ (0#2).toNat < s.params.NBUS ∧ (s.inst 0).available = false := by decide

theorem test_meets_AddressAckSendsTheRegisterAddress :
    let s := mid .awaitAddressAck .write 1
    s.HALT = false ∧ (0#2).toNat < s.params.NBUS ∧ (s.inst 0).state = .awaitAddressAck := by decide

theorem test_meets_RegisterAckRestartsInReadDirection :
    let s := mid .awaitRegisterAck .read 1
    s.HALT = false ∧ (0#2).toNat < s.params.NBUS ∧ (s.inst 0).state = .awaitRegisterAck := by decide

theorem test_meets_RestartAckAdvancesToReceiving :
    let s := mid .awaitReadRestartAck .read 1
    s.HALT = false ∧ (0#2).toNat < s.params.NBUS ∧ (s.inst 0).state = .awaitReadRestartAck ∧
      s.params.READ_ADDR_ACK = .advance := by decide

theorem test_meets_DataAckSendsTheNextByte :
    let s := mid .writingData .write 4
    s.HALT = false ∧ (0#2).toNat < s.params.NBUS ∧ (s.inst 0).state = .writingData ∧ 1 ≤ (s.inst 0).rem.toNat ∧
      (s.inst 0).rem.toNat ≤ s.params.NMAX := by decide

theorem test_meets_ReceivedByteIsStoredAndAnswered :
    let s := mid .awaitReadRestartAck .read 1
    s.params.Valid ∧ s.HALT = false ∧ (0#2).toNat < s.params.NBUS ∧
      ((s.inst 0).state = .awaitReadRestartAck ∨ (s.inst 0).state = .receivingData) ∧
      1 ≤ (s.inst 0).rem.toNat ∧ (s.inst 0).rem.toNat ≤ s.params.NMAX := by decide

theorem test_meets_StopFinishesTheTransaction :
    let s := mid .awaitStop .read 0
    s.HALT = false ∧ (0#2).toNat < s.params.NBUS ∧ (s.inst 0).state = .awaitStop ∧
      s.vote s.params.BUS_ACTIVE_LEVEL ≠ 0 := by decide

theorem test_meets_StopWithoutAVoteIsFatal :
    let s := (mid .awaitStop .read 0).setVote 2 0
    s.HALT = false ∧ (0#2).toNat < s.params.NBUS ∧ (s.inst 0).state = .awaitStop ∧
      s.vote s.params.BUS_ACTIVE_LEVEL = 0 := by decide

theorem test_meets_UnexpectedSubEventsAreFatal :
    let s := mid .awaitStop .write 0
    s.HALT = false ∧ (0#2).toNat < s.params.NBUS ∧
      expects s.params.READ_ADDR_ACK (s.inst 0).state SubEvent.ack.kind = false := by decide

theorem test_meets_WholeReadPacksItsBytes :
    let s := State.reset
    s.params.Valid ∧ s.HALT = false ∧ (Instr.xstart 0 .read 0x55 0x13 2 1).wellFormed s.params = true ∧
      (s.inst 0).available = true ∧ s.vote s.params.BUS_ACTIVE_LEVEL < s.params.VOTE_MAX ∧
      s.params.READ_ADDR_ACK = .advance ∧ ([0x00, 0x0A] : List Byte).length = (2#3).toNat := by decide

theorem test_meets_WholeWriteSendsItsLanes :
    let s := State.reset
    s.params.Valid ∧ s.HALT = false ∧ (Instr.xstart 1 .write 0x55 0x0B 1 3).wellFormed s.params = true ∧
      (s.inst 1).available = true ∧ s.vote s.params.BUS_ACTIVE_LEVEL < s.params.VOTE_MAX := by decide

theorem test_meets_SubEventsOfTwoInstancesCommute :
    let s := both .awaitStop .read 0
    (0#2) ≠ 1 ∧ s.HALT = false ∧ (0#2).toNat < s.params.NBUS ∧ (1#2).toNat < s.params.NBUS ∧
      ∃ t, execAll [.subev 0 .stop, .subev 1 .stop] s = .next t ∧ t.HALT = false :=
  ⟨by decide, rfl, by decide, by decide, _, rfl, by decide⟩

theorem test_meets_event_in_range : State.reset.HALT = false ∧ (31#5).toNat < State.reset.params.EVW := by decide

theorem test_meets_DrainPassClearsEveryPendingEvent :
    let s := { mid .awaitAddressAck .read 2 with EV := 0x80000001, inputs := [] }
    s.Inv ∧ s.HALT = false ∧ s.PWR = .awake ∧
      ∀ u : State, u.HALT = false → u.PWR = .awake → u.params = s.params →
        ∃ v, readsBuffer.run [] u = .next v ∧ v.HALT = false ∧ v.PWR = .awake ∧ v.params = u.params ∧ v.EV = u.EV :=
  ⟨mid_inv 0x80000001 _, rfl, rfl, fun u hh hp _ => readsBuffer_keeps u hh hp⟩

theorem test_meets_DeliveryPerformsTheLeastPendingSubEvent :
    let u := { (mid .receivingData .read 1).inst 0 with IF := 0b110, RXDATA := 0x7F }
    let s := { (mid .receivingData .read 1).setInst 0 u with inputs := [.deliver 0] }
    s.inputs = .deliver 0 :: [] ∧ s.HALT = false ∧ (0#2).toNat < s.params.NBUS ∧
      u.IF.getLsbD (kindBit .rx) = true ∧ u.IEN.getLsbD (kindBit .rx) = true ∧
      (∀ j : Kind, kindBit j < kindBit .rx →
        u.IF.getLsbD (kindBit j) = false ∨ u.IEN.getLsbD (kindBit j) = false) ∧
      (0b100#3).getLsbD (kindBit .rx) = false ∧
      (∀ j : Kind, j ≠ .rx → (0b100#3).getLsbD (kindBit j) = u.IF.getLsbD (kindBit j)) ∧
      ∃ t, exec (.subev 0 (SubEvent.ofKind .rx u.RXDATA))
        ({ s with inputs := [] }.setInst 0 { u with IF := 0b100 }) = .next t := by
  refine ⟨rfl, rfl, by decide, by decide, by decide, ?_, by decide, ?_, _, rfl⟩ <;> intro j <;> cases j <;> decide

theorem test_meets_DeliveryNotEnabledDoesNothing :
    halted.HALT = true ∧ State.reset.params.NBUS ≤ (2#2).toNat ∧
      (State.reset.inst 0).IF &&& (State.reset.inst 0).IEN = 0 := by decide

theorem test_meets_QuiescentMeansNoEnabledFlag : State.reset.Quiescent := by
  refine ⟨rfl, by decide, ?_⟩
  rintro ⟨b, hb⟩
  revert b
  decide

/-- Not quiescent: halted (rule R362 c), or with an enabled flag. -/
theorem test_not_quiescent :
    ¬ halted.Quiescent ∧ ¬ (State.reset.setInst 1 { BusInstance.reset with IF := 0b001 }).Quiescent :=
  ⟨fun h => absurd h.1 (by decide), fun h => h.2.2 ⟨1, by decide⟩⟩

/-- A transaction in flight while the Host sleeps with a read of its own held. -/
def abandoned : State := { mid .awaitAddressAck .read 2 with PWR := .asleep 2, inputs := [.word .host 0x20000000] }

theorem abandoned_stays {s t : State} (h : s.Reaches t) (hs : s = abandoned) : t = abandoned := by
  have stays : step abandoned = .next abandoned := by rfl
  have quiet : ∀ b, (deliveryKind b abandoned).isSome = false := by decide
  induction h with
  | here => exact hs
  | input _ hstep _ ih =>
    subst hs
    rw [stays] at hstep
    cases hstep
    exact ih rfl
  | delivery b hb _ _ _ =>
    subst hs
    rw [quiet b] at hb
    cases hb

/-- Its instance has no sub-event to come, though an input is left: it is stuck (rule R362 d). -/
theorem test_meets_StuckTransactionsStay :
    (0#2).toNat < abandoned.params.NBUS ∧ (abandoned.inst 0).available = false ∧ ¬ abandoned.SubEventToCome 0 := by
  refine ⟨by decide, by decide, fun h => ?_⟩
  obtain ⟨t, hr, hf⟩ := h
  rw [abandoned_stays hr rfl] at hf
  rcases hf with hf | ⟨w, ev, _, hf, _⟩
  · exact absurd hf (by decide)
  · exact absurd hf (by rw [show abandoned.taken = none from rfl]; simp)

/-- With nothing left but an enabled flag the sub-event is still to come: not stuck. -/
theorem test_pending_delivery_is_to_come :
    ((mid .awaitAddressAck .read 2).setInst 0 { (mid .awaitAddressAck .read 2).inst 0 with IF := 0b001 }).SubEventToCome
      0 := ⟨_, .here, .inl (by decide)⟩

end Sys2Proof.Tests
end

section
/-! ### The input a step takes (rules R9, R127, R129) -/

namespace Sys2Proof.Machine

/-- The Host is not asleep exactly when `PWR` is `Awake` (rule R34). -/
theorem State.isAsleep_eq_false_iff {s : State} : s.isAsleep = false ↔ s.PWR = .awake := by
  cases h : s.PWR <;> simp [State.isAsleep, h]

/-- Only a HOST word is held, and only while the Host is asleep (rules R129 and R299). -/
theorem Input.held_word_eq_false_iff {asleep : Bool} {p : Port} {w : Word} :
    (Input.word p w).held asleep = false ↔ (p = .host → asleep = false) := by
  cases p <;> simp [Input.held]

/-- An input that is not held is the next one when it stands first. -/
theorem nextInput_cons {asleep : Bool} {i : Input} {rest : List Input} (h : i.held asleep = false) :
    nextInput asleep (i :: rest) = some (i, rest) := by
  simp [nextInput, h]

/-- A step takes the first input, when it is not held. -/
theorem step_of_inputs_cons {s : State} {i : Input} {rest : List Input} (hin : s.inputs = i :: rest)
    (hheld : i.held s.isAsleep = false) : step s = takeInput i { s with inputs := rest } := by
  simp [step, advance, hin, nextInput_cons hheld]

/-- A step takes the word that stands first, when the Host is awake or the word is on another port. -/
theorem step_of_inputs_word {s : State} {p : Port} {w : Word} {rest : List Input}
    (hin : s.inputs = .word p w :: rest) (hawake : p = .host → s.PWR = .awake) :
    step s = takeWord p w { s with inputs := rest } :=
  step_of_inputs_cons hin (Input.held_word_eq_false_iff.mpr fun hp => State.isAsleep_eq_false_iff.mpr (hawake hp))

/-- A word on its operation's own port runs that operation. -/
theorem takeWord_of_decode {p : Port} {w : Word} {i : Instr} (hdec : decode w = .ok i) (hport : i.port = p)
    (s : State) : takeWord p w s = exec i s := by
  simp [takeWord, hdec, hport]

/-- Settles O7: the word at the head is the input taken, and a word on its own port is its operation. -/
theorem stepRunsTheDecodedOperation : Obligations.StepRunsTheDecodedOperation := by
  intro s p w rest i hin hawake hdec hport
  calc step s = takeWord p w { s with inputs := rest } := step_of_inputs_word hin hawake
    _ = exec i { s with inputs := rest } := takeWord_of_decode hdec hport _

end Sys2Proof.Machine
end

section
/-! ### What a sub-event, a delivery and an operation do (rules R42, R127, R161, R244) -/

namespace Sys2Proof.Machine

/-! The model's record updates that have no name of their own, named, so that each is written once. -/

/-- `EV <- e`. -/
def State.setEV (s : State) (e : Word) : State := { s with EV := e }

/-- One more free value is drawn. -/
def State.draw (s : State) : State := { s with drawn := s.drawn + 1 }

/-- The Host goes to sleep at level `l`. -/
def State.sleepAt (s : State) (l : BitVec 3) : State := { s.emitSleep l with PWR := .asleep l }

/-- A sub-event latched by the front-end (rule R241). -/
def BusInstance.latch (u : BusInstance) : SubEvent → BusInstance
  | .ack => u.setFlag .ack
  | .rx byte => { u.setFlag .rx with RXDATA := byte }
  | .stop => u.setFlag .stop

/-- A transaction begun (rule R163). -/
def State.started (s : State) (b : BitVec 2) (mode : Mode) (paddr : BitVec 7) (raddr : Byte) (count : BitVec 3)
    (evid : BitVec 5) : State :=
  ((s.setVote s.params.BUS_ACTIVE_LEVEL (s.vote s.params.BUS_ACTIVE_LEVEL + 1)).setInst b
    { s.inst b with
      available := false, mode := mode, paddr := paddr, raddr := raddr, rem := count, evid := evid,
      state := .awaitAddressAck }).emit b [.start, .txdata (addrByte paddr 0)]

/-- A transaction finished (rule R176). -/
def State.finished (s : State) (b : BitVec 2) : State :=
  ((s.setVote s.params.BUS_ACTIVE_LEVEL (s.vote s.params.BUS_ACTIVE_LEVEL - 1)).setInst b
    { s.inst b with available := true, state := .idle }).setEV (s.EV ||| eventMask (s.inst b).evid)

/-- The state a delivery of `kind` on BusInstance `b` performs its sub-event in: the flag cleared, the Host woken (rule
R244). -/
def State.delivering (s : State) (b : BitVec 2) (kind : Kind) : State :=
  (s.setInst b ((s.inst b).clearFlag kind)).wakeUp

/-- `t` is `u` with one more answer. -/
def State.Answers (u t : State) : Prop := ∃ p ok d, t = u.respond p ok d

/-- What a sub-event that is not fatal does, transition by transition (rules R168 to R174 and R176). -/
inductive Transition (b : BitVec 2) (s : State) : SubEvent → State → Prop
  | addressAck (hst : (s.inst b).state = .awaitAddressAck) : Transition b s .ack (ackAddress b s)
  | registerAck (hst : (s.inst b).state = .awaitRegisterAck) : Transition b s .ack (ackRegister b s)
  | restartAck (hst : (s.inst b).state = .awaitReadRestartAck) : Transition b s .ack (s.goto b .receivingData)
  | sent (hst : (s.inst b).state = .writingData) (hlo : 1 ≤ (s.inst b).rem.toNat)
      (hhi : (s.inst b).rem.toNat ≤ s.params.NMAX) : Transition b s .ack (sendByte b s ((s.inst b).rem - 1))
  | received (v : Byte) (hst : (s.inst b).state = .awaitReadRestartAck ∨ (s.inst b).state = .receivingData)
      (hlo : 1 ≤ (s.inst b).rem.toNat) (hhi : (s.inst b).rem.toNat ≤ s.params.NMAX) :
      Transition b s (.rx v) (receiveByte b v s ((s.inst b).rem - 1))
  | finished (hst : (s.inst b).state = .awaitStop) (hvote : s.vote s.params.BUS_ACTIVE_LEVEL ≠ 0) :
      Transition b s .stop (s.finished b)

/-- What an operation does before it is answered: nothing, its own effect, or a fatal error. -/
inductive Effect (s : State) : Instr → State → Prop
  | nothing {i : Instr} : Effect s i s
  | drawn {b : BitVec 2} : Effect s (.bufrd b) s.draw
  | buffered {b lane : BitVec 2} {byte : Byte} (hb : b.toNat < s.params.NBUS) (hlane : lane.toNat < s.params.NMAX) :
      Effect s (.bufwr b lane byte) (s.memWrite b lane.toNat byte)
  | posted {e : BitVec 5} (he : e.toNat < s.params.EVW) : Effect s (.evpost e) (s.setEV (s.EV ||| eventMask e))
  | cleared {e : BitVec 5} : Effect s (.evclr e) (s.setEV (s.EV &&& ~~~(eventMask e)))
  | blocked {l : BitVec 3} (hl : l.toNat < s.params.NLEVELS) (hlt : s.vote l < s.params.VOTE_MAX) :
      Effect s (.emblk l) (s.setVote l (s.vote l + 1))
  | unblocked {l : BitVec 3} (hl : l.toNat < s.params.NLEVELS) (hpos : s.vote l ≠ 0) :
      Effect s (.emunblk l) (s.setVote l (s.vote l - 1))
  | slept (hrun : s.HALT = false) : Effect s .emsleep (s.sleepAt (cda s))
  | started {b : BitVec 2} {mode : Mode} {paddr : BitVec 7} {raddr : Byte} {count : BitVec 3} {evid : BitVec 5}
      (hwf : (Instr.xstart b mode paddr raddr count evid).wellFormed s.params = true)
      (hidle : (s.inst b).available = true) (hlt : s.vote s.params.BUS_ACTIVE_LEVEL < s.params.VOTE_MAX) :
      Effect s (.xstart b mode paddr raddr count evid) (s.started b mode paddr raddr count evid)
  | moved {b : BitVec 2} {ev : SubEvent} {u : State} (hb : b.toNat < s.params.NBUS)
      (htr : Transition b s.wakeUp ev u) : Effect s (.subev b ev) u
  | latched {b : BitVec 2} {ev : SubEvent} (hb : b.toNat < s.params.NBUS) :
      Effect s (.irqraise b ev) (s.setInst b ((s.inst b).latch ev))
  | enabled {b : BitVec 2} {ien : BitVec 3} (hb : b.toNat < s.params.NBUS) :
      Effect s (.irqen b ien) (s.setInst b { s.inst b with IEN := ien })
  | woken : Effect s .wake s.wakeUp
  | raised {i : Instr} {e : FatalError} (hrun : s.HALT = false)
      (hi : (∃ b mode paddr raddr count evid, i = .xstart b mode paddr raddr count evid) ∨ (∃ l, i = .emblk l) ∨
        ∃ l, i = .emunblk l) : Effect s i (s.raiseFatal e)
  | subEventRaised {b : BitVec 2} {ev : SubEvent} {e : FatalError} (hrun : s.HALT = false) :
      Effect s (.subev b ev) (s.wakeUp.raiseFatal e)

/-! The fields and registers of the named updates. -/

section fields

variable (s : State)

@[simp] theorem State.setEV_inst (e : Word) (b : BitVec 2) : (s.setEV e).inst b = s.inst b := rfl
@[simp] theorem State.setEV_vote (e : Word) (l : BitVec 3) : (s.setEV e).vote l = s.vote l := rfl

@[simp] theorem State.started_inst_same (b : BitVec 2) (mode : Mode) (paddr : BitVec 7) (raddr : Byte)
    (count : BitVec 3) (evid : BitVec 5) :
    (s.started b mode paddr raddr count evid).inst b =
      { s.inst b with
        available := false, mode := mode, paddr := paddr, raddr := raddr, rem := count, evid := evid,
        state := .awaitAddressAck } := by
  simp [State.started]

@[simp] theorem State.started_inst_other {b c : BitVec 2} (hc : c ≠ b) (mode : Mode) (paddr : BitVec 7) (raddr : Byte)
    (count : BitVec 3) (evid : BitVec 5) :
    (s.started b mode paddr raddr count evid).inst c = s.inst c := by
  simp [State.started, hc]

theorem State.started_out_other {b c : BitVec 2} (hc : c ≠ b) (mode : Mode) (paddr : BitVec 7) (raddr : Byte)
    (count : BitVec 3) (evid : BitVec 5) :
    (s.started b mode paddr raddr count evid).out c = s.out c := by
  simp [State.started, hc]

theorem State.started_vote_other {l : BitVec 3} (hl : l ≠ s.params.BUS_ACTIVE_LEVEL) (b : BitVec 2) (mode : Mode)
    (paddr : BitVec 7) (raddr : Byte) (count : BitVec 3) (evid : BitVec 5) :
    (s.started b mode paddr raddr count evid).vote l = s.vote l := by
  simp [State.started, hl]

@[simp] theorem State.finished_inst_same (b : BitVec 2) :
    (s.finished b).inst b = { s.inst b with available := true, state := .idle } := by
  simp [State.finished]

@[simp] theorem State.finished_inst_other {b c : BitVec 2} (hc : c ≠ b) : (s.finished b).inst c = s.inst c := by
  simp [State.finished, hc]

theorem State.finished_vote_other {l : BitVec 3} (hl : l ≠ s.params.BUS_ACTIVE_LEVEL) (b : BitVec 2) :
    (s.finished b).vote l = s.vote l := by
  simp [State.finished, hl]

@[simp] theorem State.delivering_inst_same (b : BitVec 2) (kind : Kind) :
    (s.delivering b kind).inst b = (s.inst b).clearFlag kind := by
  simp [State.delivering]

@[simp] theorem State.delivering_inst_other {b c : BitVec 2} (hc : c ≠ b) (kind : Kind) :
    (s.delivering b kind).inst c = s.inst c := by
  simp [State.delivering, hc]

@[simp] theorem BusInstance.clearFlag_state (x : BusInstance) (kind : Kind) : (x.clearFlag kind).state = x.state := rfl

/-- Latching a sub-event writes the flags and the receive register only. -/
theorem BusInstance.latch_eq (x : BusInstance) (ev : SubEvent) :
    x.latch ev = { x with IF := (x.latch ev).IF, RXDATA := (x.latch ev).RXDATA } := by
  cases ev <;> rfl

end fields

/-! The transitions are what a handler can come to. -/

/-- A handler that is done made one of the transitions. -/
theorem handle_done {b : BitVec 2} {ev : SubEvent} {s u : State} (h : handle b ev s = .done u) :
    Transition b s ev u := by
  have byte_due {run : BitVec 3 → State} (hrun : withDataByte b s run = .done u) :
      1 ≤ (s.inst b).rem.toNat ∧ (s.inst b).rem.toNat ≤ s.params.NMAX ∧ u = run ((s.inst b).rem - 1) := by
    rcases withDataByte_cases b s run with ⟨hlo, hhi, hd⟩ | ⟨_, hd⟩
    · rw [hd] at hrun
      exact ⟨hlo, hhi, (Handled.done.inj hrun).symm⟩
    · rw [hd] at hrun
      cases hrun
  rcases handle_cases b ev s with ⟨_, hd⟩ | ⟨hst, rfl, hd⟩ | ⟨hst, rfl, hd⟩ | ⟨hst, rfl, _, hd⟩ | ⟨hst, rfl, hd⟩ |
    ⟨hst, v, rfl, hd⟩ | ⟨hst, rfl, hd⟩
  all_goals rw [hd] at h
  · cases h
  · cases h
    exact .addressAck hst
  · cases h
    exact .registerAck hst
  · cases h
    exact .restartAck hst
  · obtain ⟨hlo, hhi, rfl⟩ := byte_due h
    exact .sent hst hlo hhi
  · obtain ⟨hlo, hhi, rfl⟩ := byte_due h
    exact .received v hst hlo hhi
  · rcases finishTransaction_cases b s with ⟨_, hf⟩ | ⟨hvote, hf⟩
    · rw [hf] at h
      cases h
    · rw [hf] at h
      cases h
      exact .finished hst hvote

/-! What a transition does to the other instances, to its own, and to what they share. -/

theorem Transition.other {b c : BitVec 2} {s u : State} {ev : SubEvent} (h : Transition b s ev u) (hc : c ≠ b) :
    u.inst c = s.inst c ∧ u.out c = s.out c := by
  cases h with
  | addressAck =>
    obtain ⟨_, hinst, _, hout, _⟩ := ackAddress_spec b s
    exact ⟨hinst c hc, hout c hc⟩
  | registerAck =>
    obtain ⟨_, hinst, _, hout, _⟩ := ackRegister_spec b s
    exact ⟨hinst c hc, hout c hc⟩
  | restartAck => exact ⟨State.goto_inst_other s hc _, rfl⟩
  | sent =>
    obtain ⟨_, hinst, _, hout, _⟩ := sendByte_spec b s ((s.inst b).rem - 1)
    exact ⟨hinst c hc, hout c hc⟩
  | received v =>
    obtain ⟨_, hinst, _, hout, _⟩ := receiveByte_spec b v s ((s.inst b).rem - 1)
    exact ⟨hinst c hc, hout c hc⟩
  | finished => exact ⟨State.finished_inst_other s hc, rfl⟩

/-- Of its own BusInstance a transition writes the state, the gate, the count and the buffer; the gate only at the end,
and the buffer only with a received byte. -/
theorem Transition.same {b : BitVec 2} {s u : State} {ev : SubEvent} (h : Transition b s ev u) :
    ∃ state available rem buf,
      u.inst b = { s.inst b with state := state, available := available, rem := rem, buf := buf } ∧
      (available = (s.inst b).available ∨ ev = .stop ∧ (s.inst b).state = .awaitStop ∧ available = true) ∧
      (buf = (s.inst b).buf ∨ ∃ v, ev = .rx v) := by
  cases h with
  | addressAck => exact ⟨_, _, _, _, (ackAddress_spec b s).1, .inl rfl, .inl rfl⟩
  | registerAck => exact ⟨_, _, _, _, (ackRegister_spec b s).1, .inl rfl, .inl rfl⟩
  | restartAck => exact ⟨_, _, _, _, State.goto_inst_same s b _, .inl rfl, .inl rfl⟩
  | sent => exact ⟨_, _, _, _, (sendByte_spec b s _).1, .inl rfl, .inl rfl⟩
  | received v => exact ⟨_, _, _, _, (receiveByte_spec b v s _).1, .inl rfl, .inr ⟨v, rfl⟩⟩
  | finished hst => exact ⟨_, _, _, _, State.finished_inst_same s b, .inr ⟨rfl, hst, rfl⟩, .inl rfl⟩

/-- What the instances share is left alone but by the end of a transaction. -/
theorem Transition.shared {b : BitVec 2} {s u : State} {ev : SubEvent} (h : Transition b s ev u) :
    (ev ≠ .stop ∧ ∃ bus busOut, u = { s with bus := bus, busOut := busOut }) ∨
    (ev = .stop ∧ (s.inst b).state = .awaitStop ∧ s.vote s.params.BUS_ACTIVE_LEVEL ≠ 0 ∧ u = s.finished b) := by
  cases h with
  | addressAck => exact .inl ⟨by simp, _, _, rfl⟩
  | registerAck => exact .inl ⟨by simp, _, _, rfl⟩
  | restartAck => exact .inl ⟨by simp, _, _, rfl⟩
  | sent =>
    obtain ⟨_, _, _, _, hframe⟩ := sendByte_spec b s ((s.inst b).rem - 1)
    exact .inl ⟨by simp, _, _, hframe⟩
  | received v =>
    obtain ⟨_, _, _, _, hframe⟩ := receiveByte_spec b v s ((s.inst b).rem - 1)
    exact .inl ⟨by simp, _, _, hframe⟩
  | finished hst hvote => exact .inr ⟨rfl, hst, hvote, rfl⟩

/-! What a delivery, an operation and a step can come to. -/

/-- A delivery step: nothing, or one transition of its BusInstance, or a fatal error; both after the flag is cleared and
the Host woken. -/
theorem deliver_next {b : BitVec 2} {s t : State} (h : deliver b s = .next t) :
    t = s ∨ ∃ kind, s.HALT = false ∧ b.toNat < s.params.NBUS ∧
      ((∃ ev, Transition b (s.delivering b kind) ev t) ∨ ∃ e, t = (s.delivering b kind).raiseFatal e) := by
  rcases deliver_cases b s with ⟨_, hd⟩ | ⟨kind, hkind, hd⟩
  · rw [hd] at h
    cases h
    exact .inl rfl
  · rw [hd] at h
    obtain ⟨hrun, hb, _⟩ := deliveryKind_some hkind
    rcases concludeUnanswered_next h with hdone | ⟨e, _, ht⟩
    · exact .inr ⟨kind, hrun, hb, .inl ⟨_, handle_done hdone⟩⟩
    · exact .inr ⟨kind, hrun, hb, .inr ⟨e, ht⟩⟩

/-- Some effect of operation `i`, answered. -/
def Executed (i : Instr) (s t : State) : Prop := ∃ u, Effect s i u ∧ u.Answers t

theorem Executed.refused (i : Instr) (s : State) (p : Port) (r : Reason) : Executed i s (s.refuse p r) :=
  ⟨s, .nothing, p, false, r.word, rfl⟩

/-- An accepted operation is executed when what it answers in is its effect. -/
theorem Executed.of_accept {i : Instr} {s u t : State} {p : Port} {d : Word} (h : accept p d u = .next t)
    (he : Effect s i u) : Executed i s t :=
  ⟨u, he, p, true, d, accept_next h⟩

/-- An operation that can raise is executed when its result, or its fatal error, is its effect. -/
theorem Executed.of_conclude {i : Instr} {s s0 t : State} {p : Port} {r : Handled} (h : conclude p s0 r = .next t)
    (hdone : ∀ u, r = .done u → Effect s i u) (hfatal : ∀ e, Effect s i (s0.raiseFatal e)) : Executed i s t := by
  rcases conclude_next h with ⟨u, hr, ht⟩ | ⟨e, _, ht⟩
  · exact ⟨u, hdone u hr, p, true, 0, ht⟩
  · exact ⟨_, hfatal e, p, false, _, ht⟩

/-- A checked operation is executed when it is executed wherever its checks pass. -/
theorem Executed.of_checked {i : Instr} {s t : State} {p : Port} {r : Bool} {run : Host.Outcome State Fault Refusal}
    (h : checked p r s run = .next t) (hrun : s.HALT = false → r = true → run = .next t → Executed i s t) :
    Executed i s t := by
  rcases checked_cases p r s run with ⟨_, hc⟩ | ⟨_, _, hc⟩ | ⟨hh, hr, hc⟩
  · rw [hc] at h
    cases h
    exact .refused ..
  · rw [hc] at h
    cases h
    exact .refused ..
  · exact hrun hh hr (hc ▸ h)

/-- The same for the gate (check 4 of rule R127). -/
theorem Executed.of_unlessBusy {i : Instr} {s t : State} {b : BitVec 2} {run : Host.Outcome State Fault Refusal}
    (h : unlessBusy b s run = .next t) (hrun : (s.inst b).available = true → run = .next t → Executed i s t) :
    Executed i s t := by
  rcases unlessBusy_cases b s run with ⟨_, hc⟩ | ⟨ha, hc⟩
  · rw [hc] at h
    cases h
    exact .refused ..
  · exact hrun ha (hc ▸ h)

theorem execXstart_executed {b : BitVec 2} {mode : Mode} {paddr : BitVec 7} {raddr : Byte} {count : BitVec 3}
    {evid : BitVec 5} {s t : State} (h : execXstart b mode paddr raddr count evid s = .next t) :
    Executed (.xstart b mode paddr raddr count evid) s t := by
  refine .of_checked h fun hrun hwf h => .of_unlessBusy h fun hidle h => .of_conclude h (fun u hu => ?_) fun e => ?_
  · rcases startTransaction_cases b mode paddr raddr count evid s with ⟨hlt, hd⟩ | ⟨_, hd⟩
    · rw [hd] at hu
      cases hu
      exact .started hwf hidle hlt
    · rw [hd] at hu
      cases hu
  · exact .raised hrun (.inl ⟨_, _, _, _, _, _, rfl⟩)

theorem execEmblk_executed {l : BitVec 3} {s t : State} (h : execEmblk l s = .next t) : Executed (.emblk l) s t := by
  refine .of_checked h fun hrun hl h => .of_conclude h (fun u hu => ?_) fun e => .raised hrun (.inr (.inl ⟨l, rfl⟩))
  rcases block_cases l s with ⟨hlt, hd⟩ | ⟨_, hd⟩
  · rw [hd] at hu
    cases hu
    exact .blocked (of_decide_eq_true hl) hlt
  · rw [hd] at hu
    cases hu

theorem execEmunblk_executed {l : BitVec 3} {s t : State} (h : execEmunblk l s = .next t) :
    Executed (.emunblk l) s t := by
  refine .of_checked h fun hrun hl h => .of_conclude h (fun u hu => ?_) fun e => .raised hrun (.inr (.inr ⟨l, rfl⟩))
  rcases unblock_cases l s with ⟨_, hd⟩ | ⟨hpos, hd⟩
  · rw [hd] at hu
    cases hu
  · rw [hd] at hu
    cases hu
    exact .unblocked (of_decide_eq_true hl) hpos

/-- What an operation goes on to is one of its effects, answered. -/
theorem exec_executed {i : Instr} {s t : State} (h : exec i s = .next t) : Executed i s t := by
  cases i with
  | xstart => exact execXstart_executed h
  | emblk => exact execEmblk_executed h
  | emunblk => exact execEmunblk_executed h
  | bufwr b lane byte =>
    refine .of_checked h fun _ hwf h => .of_unlessBusy h fun _ h => .of_accept h ?_
    rw [Bool.and_eq_true] at hwf
    exact .buffered (of_decide_eq_true hwf.1) (of_decide_eq_true hwf.2)
  | bufrd b =>
    refine .of_checked h fun _ _ h => ?_
    split at h
    · exact .of_accept h .nothing
    · exact .of_accept h .drawn
  | evpost e => exact .of_checked h fun _ he h => .of_accept h (.posted (of_decide_eq_true he))
  | evclr e => exact .of_checked h fun _ _ h => .of_accept h .cleared
  | emsleep => exact .of_checked h fun hrun _ h => .of_accept h (.slept hrun)
  | subev b ev =>
    exact .of_checked h fun hrun hb h => .of_conclude h (fun u hu => .moved (of_decide_eq_true hb) (handle_done hu))
      fun e => .subEventRaised hrun
  | irqraise b ev => exact .of_checked h fun _ hb h => .of_accept h (.latched (of_decide_eq_true hb))
  | irqen b ien => exact .of_checked h fun _ hb h => .of_accept h (.enabled (of_decide_eq_true hb))
  | wake => exact .of_checked h fun _ _ h => .of_accept h .woken
  | fstat => exact .of_accept h .nothing
  | xstat | evpend | emcda | irqstat => exact .of_checked h fun _ _ h => .of_accept h .nothing

/-- The step waits, or it takes an input that is not held. -/
theorem step_next {s t : State} (h : step s = .next t) :
    t = s ∨ ∃ i rest, s.taken = some i ∧ i.held s.isAsleep = false ∧
      takeInput i { s with inputs := rest } = .next t := by
  rcases step_cases s with ⟨_, hs⟩ | ⟨i, rest, hnext, hs⟩
  · rw [hs] at h
    cases h
    exact .inl rfl
  · obtain ⟨_, _, _, _, hheld, _⟩ := nextInput_some hnext
    exact .inr ⟨i, rest, by simp [State.taken, hnext], hheld, hs ▸ h⟩

/-- A word on a port is refused, or its operation is executed. -/
theorem takeWord_next {p : Port} {w : Word} {s t : State} (h : takeWord p w s = .next t) :
    s.Answers t ∨ ∃ i, decode w = .ok i ∧ i.port = p ∧ Executed i s t := by
  rcases takeWord_cases p w s with ⟨hw, _⟩ | ⟨i, hdec, hport, hw⟩
  · rw [hw] at h
    cases h
    exact .inl ⟨_, _, _, rfl⟩
  · exact .inr ⟨i, hdec, hport, exec_executed (hw ▸ h)⟩

end Sys2Proof.Machine
end

section
/-! ### The invariant (10_state.md section 5) -/

namespace Sys2Proof.Machine

/-! One BusInstance. -/

theorem BusInstance.reset_inv (c : Params) : BusInstance.reset.Inv c where
  gate := by simp [BusInstance.reset]
  count := by simp [BusInstance.reset]
  countStop := by simp [BusInstance.reset]
  readMode := by simp [BusInstance.reset]
  writeMode := by simp [BusInstance.reset]
  evid := by simp [BusInstance.reset]
  buf := by simp [BusInstance.reset]

/-- The flags, the enables and the receive register are free. -/
theorem BusInstance.Inv.setFrontEnd {c : Params} {x : BusInstance} (hx : x.Inv c) (f e : BitVec 3) (v : Byte) :
    { x with IF := f, IEN := e, RXDATA := v }.Inv c :=
  ⟨hx.gate, hx.count, hx.countStop, hx.readMode, hx.writeMode, hx.evid, hx.buf⟩

/-- A lane below `NMAX` lies in the `8*NMAX` bits of the buffer (rules R26 and R72). -/
theorem BusInstance.Inv.setLane {c : Params} {x : BusInstance} (hx : x.Inv c) {k : Nat} (hk : k < c.NMAX) (v : Byte) :
    { x with buf := withLane x.buf k v }.Inv c where
  gate := hx.gate
  count := hx.count
  countStop := hx.countStop
  readMode := hx.readMode
  writeMode := hx.writeMode
  evid := hx.evid
  buf i hi := by
    by_cases h32 : i < 32
    · have hout : ¬ (8 * k ≤ i ∧ i < 8 * k + 8) := by omega
      rw [withLane_bit _ _ _ _ h32, if_neg hout, hx.buf i hi]
    · exact BitVec.getLsbD_of_ge _ _ (by omega)

theorem BusInstance.Inv.started {c : Params} {x : BusInstance} (hx : x.Inv c) (mode : Mode) (paddr : BitVec 7)
    (raddr : Byte) {count : BitVec 3} {evid : BitVec 5} (hlo : 1 ≤ count.toNat) (hhi : count.toNat ≤ c.NMAX)
    (hevid : evid.toNat < c.EVW) :
    { x with
      available := false, mode := mode, paddr := paddr, raddr := raddr, rem := count, evid := evid,
      state := .awaitAddressAck }.Inv c where
  gate := by simp
  count _ := ⟨hlo, hhi⟩
  countStop := by simp
  readMode := by simp
  writeMode := by simp
  evid _ := hevid
  buf := hx.buf

theorem BusInstance.Inv.finished {c : Params} {x : BusInstance} (hx : x.Inv c) :
    { x with available := true, state := .idle }.Inv c where
  gate := by simp
  count := by simp
  countStop := by simp
  readMode := by simp
  writeMode := by simp
  evid := by simp
  buf := hx.buf

theorem BtsmState.DataToCome.ne_idle {st : BtsmState} (h : st.DataToCome) : st ≠ .idle := by
  rintro rfl
  exact absurd h (by decide)

theorem BtsmState.DataToCome.ne_awaitStop {st : BtsmState} (h : st.DataToCome) : st ≠ .awaitStop := by
  rintro rfl
  exact absurd h (by decide)

/-- An BusInstance that is not idle may go to another state in which a data byte is to come and that fits its mode. -/
theorem BusInstance.Inv.goto {c : Params} {x : BusInstance} (hx : x.Inv c) {st : BtsmState}
    (hfrom : x.state.DataToCome) (hto : st.DataToCome)
    (hread : st = .awaitRegisterAck ∨ st = .awaitReadRestartAck ∨ st = .receivingData → x.mode = .read)
    (hwrite : st = .writingData → x.mode = .write) : { x with state := st }.Inv c where
  gate := by simpa [hfrom.ne_idle, hto.ne_idle] using hx.gate
  count _ := hx.count hfrom
  countStop h := absurd h hto.ne_awaitStop
  readMode := hread
  writeMode := hwrite
  evid _ := hx.evid hfrom.ne_idle
  buf := hx.buf

/-- A data byte sent or received: the count goes down, with the last byte to `AwaitStop`, else to a state in which a
byte is to come and that fits the mode. -/
theorem BusInstance.Inv.countDown {c : Params} {x : BusInstance} (hx : x.Inv c) {st : BtsmState}
    (hfrom : x.state.DataToCome) (hgoto : { x with state := st }.Inv c) (hto : st.DataToCome) :
    { x with rem := x.rem - 1, state := if x.rem - 1 = 0 then .awaitStop else st }.Inv c := by
  obtain ⟨hlo, hhi⟩ := hx.count hfrom
  have hclosed : x.available ≠ true := fun h => hfrom.ne_idle (hx.gate.mp h)
  by_cases hlast : x.rem - 1 = 0
  · simp only [if_pos hlast]
    exact ⟨by simpa using hclosed, by simp, fun _ => hlast, by simp, by simp, fun _ => hx.evid hfrom.ne_idle, hx.buf⟩
  · simp only [if_neg hlast]
    have hrem : 1 ≤ (x.rem - 1).toNat ∧ (x.rem - 1).toNat ≤ c.NMAX := by
      have hne : (x.rem - 1).toNat ≠ 0 := fun h => hlast (BitVec.eq_of_toNat_eq h)
      bv_omega
    exact ⟨hgoto.gate, fun _ => hrem, fun h => absurd h hto.ne_awaitStop, hgoto.readMode, hgoto.writeMode,
      hgoto.evid, hgoto.buf⟩

/-! The state: one rule per operation on it. -/

section
variable {s : State}

/-- The inputs, the responses and the count of draws are free. -/
theorem State.Inv.setRecords (hs : s.Inv) (inputs : List Input) (resp : List (Port × Response)) (drawn : Nat) :
    { s with inputs := inputs, resp := resp, drawn := drawn }.Inv :=
  ⟨hs.params, hs.insts, hs.absent, hs.votes, hs.absentVotes, hs.events, hs.asleep, hs.notHalted, hs.halted,
    hs.haltedAwake, hs.haltOutput⟩

theorem State.Inv.answers {t : State} (hs : s.Inv) (h : s.Answers t) : t.Inv := by
  obtain ⟨p, ok, d, rfl⟩ := h
  exact hs.setRecords ..

theorem State.Inv.withInputs (hs : s.Inv) (rest : List Input) : { s with inputs := rest }.Inv := hs.setRecords ..

theorem State.Inv.draw (hs : s.Inv) : s.draw.Inv := hs.setRecords ..

theorem State.Inv.wakeUp (hs : s.Inv) : s.wakeUp.Inv :=
  ⟨hs.params, hs.insts, hs.absent, hs.votes, hs.absentVotes, hs.events, by simp, hs.notHalted, hs.halted,
    fun _ => rfl, hs.haltOutput⟩

theorem State.Inv.setEV (hs : s.Inv) {e : Word} (he : ∀ i, s.params.EVW ≤ i → e.getLsbD i = false) :
    (s.setEV e).Inv :=
  ⟨hs.params, hs.insts, hs.absent, hs.votes, hs.absentVotes, he, hs.asleep, hs.notHalted, hs.halted,
    hs.haltedAwake, hs.haltOutput⟩

/-- The invariant is kept by a change of the registers and the stream of one existing BusInstance. -/
theorem State.Inv.of_frame {t : State} (hs : s.Inv) {b : BitVec 2} (hb : b.toNat < s.params.NBUS)
    (hinst : (t.inst b).Inv s.params) (hother : ∀ c, c ≠ b → t.inst c = s.inst c)
    (hout : ∀ c, c ≠ b → t.out c = s.out c) (hframe : ∃ bus busOut, t = { s with bus := bus, busOut := busOut }) :
    t.Inv := by
  obtain ⟨bus, busOut, rfl⟩ := hframe
  exact {
    params := hs.params
    insts := fun c => by
      by_cases hc : c = b
      · subst hc
        exact hinst
      · rw [hother c hc]
        exact hs.insts c
    absent := fun c hc => by
      have hne : c ≠ b := by
        rintro rfl
        exact absurd hb (Nat.not_lt.mpr hc)
      rw [hother c hne, hout c hne]
      exact hs.absent c hc
    votes := hs.votes
    absentVotes := hs.absentVotes
    events := hs.events
    asleep := hs.asleep
    notHalted := hs.notHalted
    halted := hs.halted
    haltedAwake := hs.haltedAwake
    haltOutput := hs.haltOutput }

theorem State.Inv.setInst (hs : s.Inv) {b : BitVec 2} {x : BusInstance} (hb : b.toNat < s.params.NBUS)
    (hx : x.Inv s.params) : (s.setInst b x).Inv :=
  hs.of_frame hb (by rwa [State.setInst_inst_same]) (fun _ hc => State.setInst_inst_other s hc x) (fun _ _ => rfl)
    ⟨_, _, rfl⟩

theorem State.Inv.emit (hs : s.Inv) {b : BitVec 2} (hb : b.toNat < s.params.NBUS) (actions : List BusAction) :
    (s.emit b actions).Inv :=
  hs.of_frame hb (hs.insts b) (fun _ _ => rfl) (fun _ hc => State.emit_out_other s hc actions) ⟨_, _, rfl⟩

theorem State.Inv.setVote (hs : s.Inv) {l : BitVec 3} {v : BitVec 8} (hl : l.toNat < s.params.NLEVELS)
    (hv : v ≤ s.params.VOTE_MAX) : (s.setVote l v).Inv where
  params := hs.params
  insts := hs.insts
  absent := hs.absent
  votes m := by
    rw [State.setVote_vote]
    split
    · exact hv
    · exact hs.votes m
  absentVotes m hm := by
    have hne : m ≠ l := by
      rintro rfl
      exact absurd hl (Nat.not_lt.mpr hm)
    rw [State.setVote_vote_other _ hne]
    exact hs.absentVotes m hm
  events := hs.events
  asleep := hs.asleep
  notHalted := hs.notHalted
  halted := hs.halted
  haltedAwake := hs.haltedAwake
  haltOutput := hs.haltOutput

theorem State.Inv.sleepAt (hs : s.Inv) {l : BitVec 3} (hl : l.toNat < s.params.NLEVELS) (hrun : s.HALT = false) :
    (s.sleepAt l).Inv where
  params := hs.params
  insts := hs.insts
  absent := hs.absent
  votes := hs.votes
  absentVotes := hs.absentVotes
  events := hs.events
  asleep m hm := by
    cases hm
    exact hl
  notHalted := hs.notHalted
  halted := hs.halted
  haltedAwake hh := absurd (hrun.symm.trans hh) (by decide)
  haltOutput := hs.haltOutput

theorem FatalError.code_range (e : FatalError) : e.code = 1 ∨ e.code = 2 ∨ e.code = 3 := by
  cases e <;> simp [FatalError.code]

theorem State.Inv.raiseFatal (hs : s.Inv) (e : FatalError) (hawake : s.PWR = .awake) : (s.raiseFatal e).Inv where
  params := hs.params
  insts := hs.insts
  absent := hs.absent
  votes := hs.votes
  absentVotes := hs.absentVotes
  events := hs.events
  asleep := hs.asleep
  notHalted h := absurd h (by simp)
  halted _ := e.code_range
  haltedAwake _ := hawake
  haltOutput := by simp [State.haltLevel]

theorem State.Inv.applyReset (hs : s.Inv) : s.applyReset.Inv where
  params := hs.params
  insts b := by
    rw [State.applyReset_inst]
    exact BusInstance.reset_inv _
  absent b hb := ⟨State.applyReset_inst s b, (hs.absent b hb).2⟩
  votes l := by
    rw [State.applyReset_vote]
    exact Nat.zero_le _
  absentVotes l _ := State.applyReset_vote s l
  events i _ := by simp [State.applyReset, State.reset]
  asleep l h := by cases h
  notHalted _ := ⟨rfl, rfl⟩
  halted h := by cases h
  haltedAwake _ := rfl
  haltOutput := by
    cases hh : s.HALT with
    | true => simp [State.applyReset, hh, State.haltLevel, State.reset, HaltLevel.deasserted]
    | false =>
      obtain ⟨hcode, hinfo⟩ := hs.notHalted hh
      simpa [State.applyReset, hh, State.haltLevel, State.reset, hcode, hinfo] using hs.haltOutput

end

/-! What the effects need of the numbers. -/

/-- Only bit `e` of the mask of event `e` is set (rule R114). -/
theorem eventMask_bit_of_lt {e : BitVec 5} {i : Nat} (h : e.toNat < i) : (eventMask e).getLsbD i = false := by
  have hne : i - e.toNat ≠ 0 := by omega
  simp [eventMask, hne]

/-- A counter below `VOTE_MAX` counts up without wrapping. -/
theorem vote_add_one_toNat {v m : BitVec 8} (h : v < m) : (v + 1).toNat = v.toNat + 1 := by
  bv_omega

/-- A counter above zero counts down without wrapping. -/
theorem vote_sub_one_toNat {v : BitVec 8} (h : v ≠ 0) : (v - 1).toNat + 1 = v.toNat := by
  bv_omega

/-- `cda()` is one of the levels (rule R144). -/
theorem cda_lt {s : State} (hv : s.params.Valid) : (cda s).toNat < s.params.NLEVELS := by
  obtain ⟨_, _, hlevels, hactive, _⟩ := hv
  unfold cda
  split
  · next l hl =>
    have hlt : l < s.params.NLEVELS := List.mem_range.mp (List.mem_of_find?_eq_some hl)
    rw [BitVec.toNat_ofNat, Nat.mod_eq_of_lt (by omega)]
    exact hlt
  · rw [BitVec.toNat_ofNat, Nat.mod_eq_of_lt (by omega)]
    omega

/-! The effects keep the invariant. -/

theorem State.Inv.started {s : State} (hs : s.Inv) {b : BitVec 2} {mode : Mode} {paddr : BitVec 7} {raddr : Byte}
    {count : BitVec 3} {evid : BitVec 5}
    (hwf : (Instr.xstart b mode paddr raddr count evid).wellFormed s.params = true)
    (hlt : s.vote s.params.BUS_ACTIVE_LEVEL < s.params.VOTE_MAX) : (s.started b mode paddr raddr count evid).Inv := by
  obtain ⟨⟨hb, hlo, hhi⟩, hevid⟩ :
      (b.toNat < s.params.NBUS ∧ 1 ≤ count.toNat ∧ count.toNat ≤ s.params.NMAX) ∧ evid.toNat < s.params.EVW := by
    simpa [Instr.wellFormed, busInRange, countInRange, evidInRange] using hwf
  obtain ⟨_, _, _, hactive, _⟩ := hs.params
  have hvote : s.vote s.params.BUS_ACTIVE_LEVEL + 1 ≤ s.params.VOTE_MAX := by bv_omega
  exact ((hs.setVote hactive hvote).setInst hb ((hs.insts b).started mode paddr raddr hlo hhi hevid)).emit hb _

theorem State.Inv.finished {s : State} (hs : s.Inv) {b : BitVec 2} (hb : b.toNat < s.params.NBUS)
    (hst : (s.inst b).state = .awaitStop) (hvote : s.vote s.params.BUS_ACTIVE_LEVEL ≠ 0) : (s.finished b).Inv := by
  obtain ⟨_, _, _, hactive, _⟩ := hs.params
  have hmax := hs.votes s.params.BUS_ACTIVE_LEVEL
  have hless : s.vote s.params.BUS_ACTIVE_LEVEL - 1 ≤ s.params.VOTE_MAX := by bv_omega
  refine ((hs.setVote hactive hless).setInst hb (hs.insts b).finished).setEV fun i hi => ?_
  have hevid : (s.inst b).evid.toNat < s.params.EVW := (hs.insts b).evid (by simp [hst])
  have hi' : s.params.EVW ≤ i := hi
  simp [hs.events i hi', eventMask_bit_of_lt (Nat.lt_of_lt_of_le hevid hi')]

/-- A transition keeps what holds of its own BusInstance: the next state fits the mode, and the count goes down to zero
with the last byte. -/
theorem Transition.inst_inv {b : BitVec 2} {s u : State} {ev : SubEvent} (h : Transition b s ev u)
    (hx : (s.inst b).Inv s.params) : (u.inst b).Inv s.params := by
  cases h with
  | addressAck hst =>
    have hdata : (s.inst b).state.DataToCome := by simp [BtsmState.DataToCome, hst]
    rw [(ackAddress_spec b s).1]
    cases hm : (s.inst b).mode with
    | read => simpa [hm] using hx.goto (st := .awaitRegisterAck) hdata (by decide) (fun _ => hm) (by simp)
    | write => simpa [hm] using hx.goto (st := .writingData) hdata (by decide) (by simp) (fun _ => hm)
  | registerAck hst =>
    have hdata : (s.inst b).state.DataToCome := by simp [BtsmState.DataToCome, hst]
    rw [(ackRegister_spec b s).1]
    exact hx.goto hdata (by decide) (fun _ => hx.readMode (by simp [hst])) (by simp)
  | restartAck hst =>
    have hdata : (s.inst b).state.DataToCome := by simp [BtsmState.DataToCome, hst]
    rw [State.goto_inst_same]
    exact hx.goto hdata (by decide) (fun _ => hx.readMode (by simp [hst])) (by simp)
  | sent hst _ _ =>
    have hdata : (s.inst b).state.DataToCome := by simp [BtsmState.DataToCome, hst]
    rw [(sendByte_spec b s _).1]
    exact hx.countDown hdata hx hdata
  | received v hst hlo hhi =>
    have hdata : (s.inst b).state.DataToCome := by rcases hst with hst | hst <;> simp [BtsmState.DataToCome, hst]
    have hread : (s.inst b).mode = .read := hx.readMode (hst.elim (.inr ∘ .inl) (.inr ∘ .inr))
    have hlane : ((s.inst b).rem - 1).toNat < s.params.NMAX := by bv_omega
    rw [(receiveByte_spec b v s _).1]
    exact (hx.countDown hdata (hx.goto hdata (by decide) (fun _ => hread) (by simp)) (by decide)).setLane hlane v
  | finished =>
    rw [State.finished_inst_same]
    exact hx.finished

/-- A transition of an existing BusInstance keeps the invariant. -/
theorem Transition.inv {b : BitVec 2} {s u : State} {ev : SubEvent} (h : Transition b s ev u) (hs : s.Inv)
    (hb : b.toNat < s.params.NBUS) : u.Inv := by
  rcases h.shared with ⟨_, hframe⟩ | ⟨_, hst, hvote, rfl⟩
  · exact hs.of_frame hb (h.inst_inv (hs.insts b)) (fun c hc => (h.other hc).1) (fun c hc => (h.other hc).2) hframe
  · exact hs.finished hb hst hvote

theorem State.Inv.delivering {s : State} (hs : s.Inv) {b : BitVec 2} (hb : b.toNat < s.params.NBUS) (kind : Kind) :
    (s.delivering b kind).Inv :=
  (hs.setInst hb ((hs.insts b).setFrontEnd _ _ _)).wakeUp

/-- A delivery step keeps the invariant. -/
theorem deliver_inv {b : BitVec 2} {s t : State} (hs : s.Inv) (h : deliver b s = .next t) : t.Inv := by
  rcases deliver_next h with rfl | ⟨kind, _, hb, ⟨ev, htr⟩ | ⟨e, rfl⟩⟩
  · exact hs
  · exact htr.inv (hs.delivering hb kind) hb
  · exact (hs.delivering hb kind).raiseFatal e rfl

theorem BusInstance.Inv.latch {c : Params} {x : BusInstance} (hx : x.Inv c) (ev : SubEvent) : (x.latch ev).Inv c := by
  rw [BusInstance.latch_eq]
  exact hx.setFrontEnd _ _ _

/-- An effect of an operation keeps the invariant; the operations of the HOST port run while the Host is awake (rule
R129). -/
theorem Effect.inv {i : Instr} {s u : State} (h : Effect s i u) (hs : s.Inv)
    (hawake : i.port = .host → s.PWR = .awake) : u.Inv := by
  cases h with
  | nothing => exact hs
  | drawn => exact hs.draw
  | buffered hb hlane => exact hs.setInst hb ((hs.insts _).setLane hlane _)
  | posted he => exact hs.setEV fun i hi => by simp [hs.events i hi, eventMask_bit_of_lt (Nat.lt_of_lt_of_le he hi)]
  | cleared => exact hs.setEV fun i hi => by simp [hs.events i hi]
  | blocked hl hlt => exact hs.setVote hl (by bv_omega)
  | @unblocked l hl hpos =>
    have hmax := hs.votes l
    exact hs.setVote hl (by bv_omega)
  | slept hrun => exact hs.sleepAt (cda_lt hs.params) hrun
  | started hwf _ hlt => exact hs.started hwf hlt
  | moved hb htr => exact htr.inv hs.wakeUp hb
  | latched hb => exact hs.setInst hb ((hs.insts _).latch _)
  | enabled hb => exact hs.setInst hb ((hs.insts _).setFrontEnd _ _ _)
  | woken => exact hs.wakeUp
  | raised _ hi =>
    refine hs.raiseFatal _ (hawake ?_)
    rcases hi with ⟨_, _, _, _, _, _, rfl⟩ | ⟨_, rfl⟩ | ⟨_, rfl⟩ <;> rfl
  | subEventRaised _ => exact hs.wakeUp.raiseFatal _ rfl

/-- An input that is not held keeps the invariant. -/
theorem takeInput_inv {i : Input} {s t : State} (hs : s.Inv) (hheld : i.held s.isAsleep = false)
    (h : takeInput i s = .next t) : t.Inv := by
  cases i with
  | reset =>
    cases h
    exact hs.applyReset
  | deliver b => exact deliver_inv hs h
  | word p w =>
    rcases takeWord_next h with hans | ⟨i, _, rfl, u, heff, hans⟩
    · exact hs.answers hans
    · have hawake : i.port = .host → s.PWR = .awake := fun hp =>
        State.isAsleep_eq_false_iff.mp (Input.held_word_eq_false_iff.mp hheld hp)
      exact (heff.inv hs hawake).answers hans

/-- Settles O13: a wait changes nothing, and every input that can be taken keeps the invariant. -/
theorem everyStepKeepsInv : Obligations.EveryStepKeepsInv := by
  intro s t hs h
  rcases step_next h with rfl | ⟨i, rest, _, hheld, htake⟩
  · exact hs
  · exact takeInput_inv (hs.withInputs rest) hheld htake

/-- Settles O12: every BusInstance has its reset value, and every number is zero. -/
theorem invHoldsAtReset : Obligations.InvHoldsAtReset where
  params := show Params.default.Valid by decide
  insts b := by
    rw [reset_inst]
    exact BusInstance.reset_inv _
  absent b _ := ⟨reset_inst b, reset_out b⟩
  votes l := by
    rw [reset_vote]
    exact Nat.zero_le _
  absentVotes l _ := reset_vote l
  events i _ := by simp [State.reset]
  asleep l h := by cases h
  notHalted _ := ⟨rfl, rfl⟩
  halted h := by cases h
  haltedAwake _ := rfl
  haltOutput := rfl

/-- Settles O10: the instances and counters by the lemmas about reset, the other items as they stand there. -/
theorem resetGivesEveryItemItsValue : Obligations.ResetGivesEveryItemItsValue :=
  ⟨reset_inst, rfl, reset_vote, rfl, rfl, rfl, rfl⟩

end Sys2Proof.Machine
end

section
/-! ### Votes and transactions in flight (rules R39 and R144) -/

namespace Sys2Proof.Machine

/-! How many transactions are in flight. -/

/-- When one BusInstance may change, the count of closed gates changes as that BusInstance's gate does. -/
theorem State.inFlight_of_others {s t : State} {b : BitVec 2}
    (hother : ∀ c, c ≠ b → (t.inst c).available = (s.inst c).available) :
    t.inFlight + (!(s.inst b).available).toNat = s.inFlight + (!(t.inst b).available).toNat := by
  have split_off (r : State) : r.inFlight =
      (([0, 1, 2, 3] : List (BitVec 2)).erase b).countP (fun c => !(r.inst c).available) +
        (!(r.inst b).available).toNat := by
    have hmem : ∀ b : BitVec 2, b ∈ ([0, 1, 2, 3] : List (BitVec 2)) := by decide
    rw [State.inFlight, ← List.countP_eq_length_filter, (List.perm_cons_erase (hmem b)).countP_eq, List.countP_cons]
    cases (r.inst b).available <;> simp
  have same_rest : (([0, 1, 2, 3] : List (BitVec 2)).erase b).countP (fun c => !(t.inst c).available) =
      (([0, 1, 2, 3] : List (BitVec 2)).erase b).countP (fun c => !(s.inst c).available) := by
    refine List.countP_congr fun c hc => ?_
    have hne : c ≠ b := ((List.Nodup.mem_erase_iff (by decide)).mp hc).1
    rw [hother c hne]
  rw [split_off s, split_off t, same_rest]
  omega

/-- Where no gate and no counter moves, the votes keep covering. -/
theorem State.VotesCover.of_gates {s t : State} (hc : s.VotesCover)
    (hgate : ∀ b, (t.inst b).available = (s.inst b).available) (hparams : t.params = s.params)
    (hvote : ∀ l, t.vote l = s.vote l) : t.VotesCover := by
  have hcount : t.inFlight = s.inFlight := by simp only [State.inFlight, hgate]
  rw [State.VotesCover, hcount, hparams, hvote]
  exact hc

theorem State.VotesCover.setInst {s : State} (hc : s.VotesCover) {b : BitVec 2} {x : BusInstance}
    (hx : x.available = (s.inst b).available) : (s.setInst b x).VotesCover := by
  refine hc.of_gates (fun c => ?_) rfl fun _ => rfl
  rw [State.setInst_inst]
  split
  · next h => rw [hx, h]
  · rfl

theorem State.VotesCover.setVote {s : State} (hc : s.VotesCover) {l : BitVec 3} {v : BitVec 8}
    (hv : l = s.params.BUS_ACTIVE_LEVEL → s.inFlight ≤ v.toNat) : (s.setVote l v).VotesCover := by
  show s.inFlight ≤ ((s.setVote l v).vote s.params.BUS_ACTIVE_LEVEL).toNat
  rw [State.setVote_vote]
  split
  · next h => exact hv h
  · exact hc

/-- Beginning a transaction takes its vote (rule R163). -/
theorem State.VotesCover.started {s : State} (hc : s.VotesCover) {b : BitVec 2}
    (hidle : (s.inst b).available = true) (hlt : s.vote s.params.BUS_ACTIVE_LEVEL < s.params.VOTE_MAX) (mode : Mode)
    (paddr : BitVec 7) (raddr : Byte) (count : BitVec 3) (evid : BitVec 5) :
    (s.started b mode paddr raddr count evid).VotesCover := by
  have hcount := State.inFlight_of_others (s := s) (t := s.started b mode paddr raddr count evid) (b := b)
    fun c hne => by rw [State.started_inst_other s hne]
  have hvote : ((s.started b mode paddr raddr count evid).vote s.params.BUS_ACTIVE_LEVEL).toNat =
      (s.vote s.params.BUS_ACTIVE_LEVEL).toNat + 1 := by
    simp only [State.started, State.emit_vote, State.setInst_vote, State.setVote_vote_same, vote_add_one_toNat hlt]
  simp only [State.started_inst_same, hidle, Bool.not_true, Bool.not_false, Bool.toNat_true, Bool.toNat_false] at hcount
  show State.inFlight _ ≤ (State.vote _ s.params.BUS_ACTIVE_LEVEL).toNat
  rw [hvote]
  unfold State.VotesCover at hc
  omega

/-- Finishing a transaction gives its vote back (rule R176). -/
theorem State.VotesCover.finished {s : State} (hc : s.VotesCover) {b : BitVec 2}
    (hbusy : (s.inst b).available = false) (hpos : s.vote s.params.BUS_ACTIVE_LEVEL ≠ 0) :
    (s.finished b).VotesCover := by
  have hcount := State.inFlight_of_others (s := s) (t := s.finished b) (b := b)
    fun c hne => by rw [State.finished_inst_other s hne]
  have hvote : ((s.finished b).vote s.params.BUS_ACTIVE_LEVEL).toNat + 1 =
      (s.vote s.params.BUS_ACTIVE_LEVEL).toNat := by
    simp only [State.finished, State.setEV_vote, State.setInst_vote, State.setVote_vote_same, vote_sub_one_toNat hpos]
  simp only [State.finished_inst_same, hbusy, Bool.not_true, Bool.not_false, Bool.toNat_true, Bool.toNat_false] at hcount
  show State.inFlight _ ≤ (State.vote _ s.params.BUS_ACTIVE_LEVEL).toNat
  unfold State.VotesCover at hc
  omega

/-! The steps keep the votes covering. -/

/-- A transition keeps the votes covering: only the end of a transaction moves the gate or a counter. -/
theorem Transition.votesCover {b : BitVec 2} {s u : State} {ev : SubEvent} (h : Transition b s ev u) (hs : s.Inv)
    (hc : s.VotesCover) : u.VotesCover := by
  rcases h.shared with ⟨hev, bus, busOut, hu⟩ | ⟨_, hst, hvote, rfl⟩
  · obtain ⟨_, available, _, _, hinst, hgate, _⟩ := h.same
    have hkept : available = (s.inst b).available := hgate.resolve_right fun hstop => hev hstop.1
    refine hc.of_gates (fun c => ?_) (by rw [hu]) fun l => by rw [hu]; rfl
    by_cases hcb : c = b
    · rw [hcb, hinst, hkept]
    · rw [(h.other hcb).1]
  · have hbusy : (s.inst b).available = false := by
      rw [← Bool.not_eq_true, (hs.insts b).gate, hst]
      decide
    exact hc.finished hbusy hvote

/-- A delivery step keeps the votes covering. -/
theorem deliver_votesCover {b : BitVec 2} {s t : State} (hs : s.Inv) (hc : s.VotesCover)
    (h : deliver b s = .next t) : t.VotesCover := by
  have hready (kind : Kind) : (s.delivering b kind).VotesCover :=
    State.VotesCover.setInst (b := b) (x := (s.inst b).clearFlag kind) hc rfl
  rcases deliver_next h with rfl | ⟨kind, _, hb, ⟨ev, htr⟩ | ⟨e, rfl⟩⟩
  · exact hc
  · exact htr.votesCover (hs.delivering hb kind) (hready kind)
  · exact hready kind

/-- An effect of an operation keeps the votes covering, if the release of a vote is of one beyond those of the
transactions in flight. -/
theorem Effect.votesCover {i : Instr} {s u : State} (h : Effect s i u) (hs : s.Inv) (hc : s.VotesCover)
    (hrelease : i = .emunblk s.params.BUS_ACTIVE_LEVEL → s.inFlight < (s.vote s.params.BUS_ACTIVE_LEVEL).toNat) :
    u.VotesCover := by
  cases h with
  | buffered => exact hc.setInst rfl
  | enabled => exact hc.setInst rfl
  | @latched b ev => exact hc.setInst (by rw [BusInstance.latch_eq])
  | blocked _ hlt =>
    refine hc.setVote ?_
    rintro rfl
    unfold State.VotesCover at hc
    rw [vote_add_one_toNat hlt]
    omega
  | unblocked _ hpos =>
    refine hc.setVote ?_
    rintro rfl
    have hheld := hrelease rfl
    have hless := vote_sub_one_toNat hpos
    omega
  | started _ hidle hlt => exact hc.started hidle hlt _ _ _ _ _
  | moved _ htr => exact htr.votesCover hs.wakeUp hc
  | nothing | drawn | posted | cleared | slept | woken | raised | subEventRaised => exact hc

theorem State.applyReset_votesCover (s : State) : s.applyReset.VotesCover := by
  have hnone : s.applyReset.inFlight = 0 := by
    simp [State.inFlight, BusInstance.reset]
  rw [State.VotesCover, hnone]
  exact Nat.zero_le _

/-! The word of a release. -/

/-- A sub-event format gives an operation of that format only. -/
theorem map_subEvent_ok {f : SubEvent → Instr} {e : Except DecodeError SubEvent} {i : Instr}
    (h : e.map f = .ok i) : ∃ ev, i = f ev := by
  cases e with
  | error _ => cases h
  | ok ev =>
    cases h
    exact ⟨ev, rfl⟩

/-- Group `0xD` holds the three operations of the front-end (rule R102). -/
theorem decodeGroupD_ok {w : Word} {i : Instr} (h : decodeGroupD w = .ok i) :
    (∃ b ev, i = .irqraise b ev) ∨ (∃ b ien, i = .irqen b ien) ∨ ∃ b, i = .irqstat b := by
  unfold decodeGroupD at h
  split at h
  · exact .inl ⟨_, map_subEvent_ok (requireZero_ok h).2⟩
  · cases (requireZero_ok h).2
    exact .inr (.inl ⟨_, _, rfl⟩)
  · cases (requireZero_ok h).2
    exact .inr (.inr ⟨_, rfl⟩)
  · cases h

/-- Group `0xE` holds the two system operations (rule R102). -/
theorem decodeGroupE_ok {w : Word} {i : Instr} (h : decodeGroupE w = .ok i) : i = .fstat ∨ i = .wake := by
  unfold decodeGroupE at h
  split at h
  · cases (requireZero_ok h).2
    exact .inl rfl
  · cases (requireZero_ok h).2
    exact .inr rfl
  · cases h

/-- Only opcode 0x9 decodes to `EMUNBLK`, its reserved bits zero (rules R101 and R112). -/
theorem fields_of_decode_emunblk {w : Word} {l : BitVec 3} (h : decode w = .ok (.emunblk l)) :
    field w 28 4 = 0x9 ∧ field w 3 25 = 0 ∧ field w 0 3 = l := by
  unfold decode at h
  split at h
  case h_9 hop =>
    obtain ⟨hzero, hi⟩ := requireZero_ok h
    cases hi
    exact ⟨BitVec.eq_of_toNat_eq hop, hzero, rfl⟩
  case h_12 =>
    obtain ⟨_, hi⟩ := map_subEvent_ok (requireZero_ok h).2
    cases hi
  case h_13 => rcases decodeGroupD_ok h with ⟨_, _, hi⟩ | ⟨_, _, hi⟩ | ⟨_, hi⟩ <;> cases hi
  case h_14 => rcases decodeGroupE_ok h with hi | hi <;> cases hi
  case h_15 => cases h
  all_goals cases (requireZero_ok h).2

/-- `EMUNBLK` has one word (rule R100). -/
theorem encode_of_decode_emunblk {w : Word} {l : BitVec 3} (h : decode w = .ok (.emunblk l)) :
    encode (.emunblk l) = w := by
  obtain ⟨hop, hzero, rfl⟩ := fields_of_decode_emunblk h
  calc encode (.emunblk (field w 0 3)) = field w 28 4 ++ field w 3 25 ++ field w 0 3 := by rw [hop, hzero]; rfl
    _ = w.extractLsb' 3 29 ++ field w 0 3 := by
        rw [field, field, BitVec.extractLsb'_append_extractLsb'_eq_extractLsb' (by decide)]
    _ = w.extractLsb' 0 32 := BitVec.extractLsb'_append_extractLsb'_eq_extractLsb' (by decide)
    _ = w := BitVec.extractLsb'_eq_self

/-- Settles O16: the inputs that can be taken keep the votes covering; a HOST word that releases a vote on
`BUS_ACTIVE_LEVEL` is the word the hypothesis speaks of. -/
theorem votesKeepCoveringTransactions : Obligations.VotesKeepCoveringTransactions := by
  intro s t hs hc hrelease h
  rcases step_next h with rfl | ⟨i, rest, htaken, hheld, htake⟩
  · exact hc
  have hs' : { s with inputs := rest }.Inv := hs.withInputs rest
  have hc' : { s with inputs := rest }.VotesCover := hc
  cases i with
  | reset =>
    cases htake
    exact State.applyReset_votesCover _
  | deliver b => exact deliver_votesCover hs' hc' htake
  | word p w =>
    rcases takeWord_next htake with ⟨_, _, _, rfl⟩ | ⟨i, hdec, rfl, u, heff, _, _, _, rfl⟩
    · exact hc'
    · refine heff.votesCover hs' hc' ?_
      rintro rfl
      exact hrelease ((encode_of_decode_emunblk hdec).symm ▸ htaken)

/-! The deepest level allowed. -/

/-- `cda()` is at most any level that holds a vote (rule R144). -/
theorem cda_le_of_vote {s : State} {l : BitVec 3} (hl : l.toNat < s.params.NLEVELS)
    (hvote : s.vote l ≠ 0) : cda s ≤ l := by
  have hheld : decide (0 < s.vote (BitVec.ofNat 3 l.toNat)) = true := by
    simpa [BitVec.pos_iff_ne_zero] using hvote
  unfold cda
  split
  · next m hm =>
    obtain ⟨_, hmr, hleast⟩ := List.find?_range_eq_some.mp hm
    have hml : m ≤ l.toNat := by
      by_contra hlt
      exact absurd (hleast l.toNat (by omega)) (by rw [hheld]; decide)
    rw [BitVec.le_def, BitVec.toNat_ofNat]
    exact Nat.le_trans (Nat.mod_le _ _) hml
  · next hnone =>
    have := List.find?_eq_none.mp hnone l.toNat (List.mem_range.mpr hl)
    exact absurd hheld this

/-- Settles O17: a transaction in flight has its vote, and `cda()` is at most a level with a vote. -/
theorem deepestAllowedIsBoundedInFlight : Obligations.DeepestAllowedIsBoundedInFlight := by
  intro s hvalid hc hbusy
  obtain ⟨_, _, _, hactive, _⟩ := hvalid
  refine cda_le_of_vote hactive fun hzero => ?_
  unfold State.VotesCover at hc
  rw [hzero] at hc
  exact absurd (Nat.lt_of_lt_of_le hbusy hc) (by decide)

end Sys2Proof.Machine
end

section
/-! ### Who may change what (rules R37 and R42) -/

namespace Sys2Proof.Machine

/-! One BusInstance under an operation. -/

/-- What an operation does to BusInstance `b`, whose registers are `x`, before it is answered. -/
inductive InstEffect (b : BitVec 2) (x : BusInstance) : Instr → BusInstance → Prop
  | kept {i : Instr} : InstEffect b x i x
  | started {mode : Mode} {paddr : BitVec 7} {raddr : Byte} {count : BitVec 3} {evid : BitVec 5}
      (hidle : x.available = true) :
      InstEffect b x (.xstart b mode paddr raddr count evid)
        { x with
          available := false, mode := mode, paddr := paddr, raddr := raddr, rem := count, evid := evid,
          state := .awaitAddressAck }
  | buffered {lane : BitVec 2} {byte : Byte} {buf : Word} : InstEffect b x (.bufwr b lane byte) { x with buf := buf }
  | moved {ev : SubEvent} {state : BtsmState} {available : Bool} {rem : BitVec 3} {buf : Word}
      (hgate : available = x.available ∨ ev = .stop ∧ available = true) (hbuf : buf = x.buf ∨ ∃ v, ev = .rx v) :
      InstEffect b x (.subev b ev) { x with state := state, available := available, rem := rem, buf := buf }
  | latched {ev : SubEvent} {flags : BitVec 3} {rxdata : Byte} :
      InstEffect b x (.irqraise b ev) { x with IF := flags, RXDATA := rxdata }
  | enabled {ien : BitVec 3} : InstEffect b x (.irqen b ien) { x with IEN := ien }

/-- An effect writes the BusInstance its operation names. -/
theorem Effect.inst {i : Instr} {s u : State} (h : Effect s i u) (b : BitVec 2) :
    InstEffect b (s.inst b) i (u.inst b) := by
  have written {c : BitVec 2} {x : BusInstance} (hx : InstEffect c (s.inst c) i x) :
      InstEffect b (s.inst b) i ((s.setInst c x).inst b) := by
    by_cases hb : b = c
    · subst hb
      rwa [State.setInst_inst_same]
    · rw [State.setInst_inst_other s hb]
      exact .kept
  cases h with
  | buffered => exact written .buffered
  | latched => exact written (BusInstance.latch_eq _ _ ▸ .latched)
  | enabled => exact written .enabled
  | started _ hidle => exact written (.started hidle)
  | @moved c ev u _ htr =>
    by_cases hb : b = c
    · subst hb
      obtain ⟨_, _, _, _, hinst, hgate, hbuf⟩ := htr.same
      rw [hinst]
      exact .moved (hgate.imp_right fun hstop => ⟨hstop.1, hstop.2.2⟩) hbuf
    · rw [(htr.other hb).1]
      exact .kept
  | nothing | drawn | posted | cleared | blocked | unblocked | slept | woken | raised | subEventRaised => exact .kept

section
variable {b : BitVec 2} {x y : BusInstance} {i : Instr}

theorem InstEffect.state_rem (h : InstEffect b x i y) :
    (y.state = x.state ∧ y.rem = x.rem) ∨ (∃ mode paddr raddr count evid, i = .xstart b mode paddr raddr count evid) ∨
      ∃ ev, i = .subev b ev := by
  cases h with
  | started => exact .inr (.inl ⟨_, _, _, _, _, rfl⟩)
  | moved => exact .inr (.inr ⟨_, rfl⟩)
  | kept | buffered | latched | enabled => exact .inl ⟨rfl, rfl⟩

theorem InstEffect.of_closed (h : InstEffect b x i y) (hidle : x.available = true) (hbusy : y.available = false) :
    ∃ mode paddr raddr count evid, i = .xstart b mode paddr raddr count evid := by
  cases h with
  | started => exact ⟨_, _, _, _, _, rfl⟩
  | moved hgate =>
    rcases hgate with hkept | ⟨_, hopen⟩
    · exact absurd (hbusy.symm.trans (hkept.trans hidle)) (by decide)
    · exact absurd (hbusy.symm.trans hopen) (by decide)
  | kept | buffered | latched | enabled => exact absurd (hbusy.symm.trans hidle) (by decide)

theorem InstEffect.of_opened (h : InstEffect b x i y) (hbusy : x.available = false) (hidle : y.available = true) :
    i = .subev b .stop := by
  cases h with
  | started => cases hidle
  | moved hgate =>
    rcases hgate with hkept | ⟨rfl, _⟩
    · exact absurd (hbusy.symm.trans (hkept.symm.trans hidle)) (by decide)
    · rfl
  | kept | buffered | latched | enabled => exact absurd (hbusy.symm.trans hidle) (by decide)

/-- The latched registers: written by an `XSTART` of the available BusInstance. -/
theorem InstEffect.descriptor (h : InstEffect b x i y) :
    (y.mode = x.mode ∧ y.paddr = x.paddr ∧ y.raddr = x.raddr ∧ y.evid = x.evid) ∨
    (x.available = true ∧ ∃ mode paddr raddr count evid, i = .xstart b mode paddr raddr count evid) := by
  cases h with
  | started hidle => exact .inr ⟨hidle, _, _, _, _, _, rfl⟩
  | kept | buffered | moved | latched | enabled => exact .inl ⟨rfl, rfl, rfl, rfl⟩

theorem InstEffect.buf (h : InstEffect b x i y) :
    y.buf = x.buf ∨ (∃ lane byte, i = .bufwr b lane byte) ∨ ∃ v, i = .subev b (.rx v) := by
  cases h with
  | buffered => exact .inr (.inl ⟨_, _, rfl⟩)
  | moved _ hbuf =>
    rcases hbuf with hbuf | ⟨v, rfl⟩
    · exact .inl hbuf
    · exact .inr (.inr ⟨v, rfl⟩)
  | kept | started | latched | enabled => exact .inl rfl

theorem InstEffect.flags (h : InstEffect b x i y) :
    (y.IF = x.IF ∧ y.RXDATA = x.RXDATA) ∨ ∃ ev, i = .irqraise b ev := by
  cases h with
  | latched => exact .inr ⟨_, rfl⟩
  | kept | started | buffered | moved | enabled => exact .inl ⟨rfl, rfl⟩

theorem InstEffect.enables (h : InstEffect b x i y) : y.IEN = x.IEN ∨ ∃ ien, i = .irqen b ien := by
  cases h with
  | enabled => exact .inr ⟨_, rfl⟩
  | kept | started | buffered | moved | latched => exact .inl rfl

end

/-! What the instances share, under an operation. -/

section
variable {s u : State} {i : Instr}

theorem Effect.events (h : Effect s i u) :
    u.EV = s.EV ∨ (∃ e, i = .evpost e) ∨ (∃ e, i = .evclr e) ∨
      ∃ c, i = .subev c .stop ∧ (s.inst c).state = .awaitStop := by
  cases h with
  | posted => exact .inr (.inl ⟨_, rfl⟩)
  | cleared => exact .inr (.inr (.inl ⟨_, rfl⟩))
  | moved _ htr =>
    rcases htr.shared with ⟨_, _, _, rfl⟩ | ⟨rfl, hst, _, rfl⟩
    · exact .inl rfl
    · exact .inr (.inr (.inr ⟨_, rfl, hst⟩))
  | nothing | drawn | buffered | blocked | unblocked | slept | started | latched | enabled | woken | raised
  | subEventRaised => exact .inl rfl

theorem Effect.votes (h : Effect s i u) (l : BitVec 3) :
    u.vote l = s.vote l ∨ i = .emblk l ∨ i = .emunblk l ∨ (l = s.params.BUS_ACTIVE_LEVEL ∧
      ((∃ c mode paddr raddr count evid, i = .xstart c mode paddr raddr count evid) ∨
        ∃ c, i = .subev c .stop ∧ (s.inst c).state = .awaitStop)) := by
  cases h with
  | @blocked m =>
    by_cases hl : l = m
    · exact .inr (.inl (hl ▸ rfl))
    · exact .inl (State.setVote_vote_other s hl _)
  | @unblocked m =>
    by_cases hl : l = m
    · exact .inr (.inr (.inl (hl ▸ rfl)))
    · exact .inl (State.setVote_vote_other s hl _)
  | started =>
    by_cases hl : l = s.params.BUS_ACTIVE_LEVEL
    · exact .inr (.inr (.inr ⟨hl, .inl ⟨_, _, _, _, _, _, rfl⟩⟩))
    · exact .inl (s.started_vote_other hl ..)
  | moved _ htr =>
    rcases htr.shared with ⟨_, _, _, rfl⟩ | ⟨rfl, hst, _, rfl⟩
    · exact .inl rfl
    · by_cases hl : l = s.params.BUS_ACTIVE_LEVEL
      · exact .inr (.inr (.inr ⟨hl, .inr ⟨_, rfl, hst⟩⟩))
      · exact .inl (s.wakeUp.finished_vote_other hl _)
  | nothing | drawn | buffered | posted | cleared | slept | latched | enabled | woken | raised
  | subEventRaised => exact .inl rfl

/-- The fatal status with its record, in `s` and in `u`, is the same. -/
def State.SameFatalStatus (s u : State) : Prop :=
  u.HALT = s.HALT ∧ u.FCODE = s.FCODE ∧ u.FINFO = s.FINFO ∧ u.haltOut = s.haltOut

theorem Effect.fatalStatus (h : Effect s i u) :
    s.SameFatalStatus u ∨ (s.HALT = false ∧ u.HALT = true ∧
      ((∃ c mode paddr raddr count evid, i = .xstart c mode paddr raddr count evid) ∨ (∃ c ev, i = .subev c ev) ∨
        (∃ l, i = .emblk l) ∨ ∃ l, i = .emunblk l)) := by
  cases h with
  | raised hrun hi =>
    refine .inr ⟨hrun, rfl, ?_⟩
    rcases hi with hi | hi | hi
    · exact .inl hi
    · exact .inr (.inr (.inl hi))
    · exact .inr (.inr (.inr hi))
  | subEventRaised hrun => exact .inr ⟨hrun, rfl, .inr (.inl ⟨_, _, rfl⟩)⟩
  | moved _ htr =>
    rcases htr.shared with ⟨_, _, _, rfl⟩ | ⟨_, _, _, rfl⟩ <;> exact .inl ⟨rfl, rfl, rfl, rfl⟩
  | nothing | drawn | buffered | posted | cleared | blocked | unblocked | slept | started | latched | enabled
  | woken => exact .inl ⟨rfl, rfl, rfl, rfl⟩

theorem Effect.power (h : Effect s i u) :
    u.PWR = s.PWR ∨ (∃ c ev, i = .subev c ev) ∨ i = .emsleep ∨ i = .wake := by
  cases h with
  | moved => exact .inr (.inl ⟨_, _, rfl⟩)
  | subEventRaised => exact .inr (.inl ⟨_, _, rfl⟩)
  | slept => exact .inr (.inr (.inl rfl))
  | woken => exact .inr (.inr (.inr rfl))
  | nothing | drawn | buffered | posted | cleared | blocked | unblocked | started | latched | enabled
  | raised => exact .inl rfl

theorem Effect.stream (h : Effect s i u) (b : BitVec 2) :
    u.out b = s.out b ∨ (∃ mode paddr raddr count evid, i = .xstart b mode paddr raddr count evid) ∨
      ∃ ev, i = .subev b ev := by
  cases h with
  | @started c =>
    by_cases hb : b = c
    · subst hb
      exact .inr (.inl ⟨_, _, _, _, _, rfl⟩)
    · exact .inl (s.started_out_other hb ..)
  | @moved c _ _ _ htr =>
    by_cases hb : b = c
    · subst hb
      exact .inr (.inr ⟨_, rfl⟩)
    · exact .inl (htr.other hb).2
  | nothing | drawn | buffered | posted | cleared | blocked | unblocked | slept | latched | enabled | woken | raised
  | subEventRaised => exact .inl rfl

theorem Effect.sleepRequests (h : Effect s i u) : u.sleepReq = s.sleepReq ∨ i = .emsleep := by
  cases h with
  | slept => exact .inr rfl
  | moved _ htr => rcases htr.shared with ⟨_, _, _, rfl⟩ | ⟨_, _, _, rfl⟩ <;> exact .inl rfl
  | nothing | drawn | buffered | posted | cleared | blocked | unblocked | started | latched | enabled | woken | raised
  | subEventRaised => exact .inl rfl

theorem Effect.params_inputs (h : Effect s i u) : u.params = s.params ∧ u.inputs = s.inputs := by
  cases h with
  | moved _ htr => rcases htr.shared with ⟨_, _, _, rfl⟩ | ⟨_, _, _, rfl⟩ <;> exact ⟨rfl, rfl⟩
  | nothing | drawn | buffered | posted | cleared | blocked | unblocked | slept | started | latched | enabled | woken
  | raised | subEventRaised => exact ⟨rfl, rfl⟩

end

/-! A delivery step. -/

section
variable {b c : BitVec 2} {s t : State}

theorem deliver_other (h : deliver c s = .next t) (hb : b ≠ c) : t.inst b = s.inst b ∧ t.out b = s.out b := by
  have hready (kind : Kind) : (s.delivering c kind).inst b = s.inst b := State.delivering_inst_other s hb kind
  rcases deliver_next h with rfl | ⟨kind, _, _, ⟨ev, htr⟩ | ⟨e, rfl⟩⟩
  · exact ⟨rfl, rfl⟩
  · obtain ⟨hinst, hout⟩ := htr.other hb
    exact ⟨hinst.trans (hready kind), hout⟩
  · exact ⟨hready kind, rfl⟩

/-- Of its own BusInstance a delivery writes the state, the gate, the count, the buffer and the flags; the gate only at
the end of a transaction. -/
theorem deliver_same (h : deliver c s = .next t) :
    ∃ state available rem buf flags,
      t.inst c =
        { s.inst c with state := state, available := available, rem := rem, buf := buf, IF := flags } ∧
      (available = (s.inst c).available ∨ (s.inst c).state = .awaitStop ∧ available = true) := by
  rcases deliver_next h with rfl | ⟨kind, _, _, ⟨ev, htr⟩ | ⟨e, rfl⟩⟩
  · exact ⟨_, _, _, _, _, rfl, .inl rfl⟩
  · obtain ⟨_, _, _, _, hinst, hgate, _⟩ := htr.same
    rw [State.delivering_inst_same] at hinst hgate
    exact ⟨_, _, _, _, _, hinst, hgate.imp_right fun hstop => hstop.2⟩
  · exact ⟨_, _, _, _, _, State.delivering_inst_same s c kind, .inl rfl⟩

/-- Any BusInstance under a delivery: its own as `deliver_same` says, another not at all. -/
theorem deliver_inst (h : deliver c s = .next t) (b : BitVec 2) :
    ∃ state available rem buf flags,
      t.inst b =
        { s.inst b with state := state, available := available, rem := rem, buf := buf, IF := flags } ∧
      (available = (s.inst b).available ∨ (s.inst c).state = .awaitStop ∧ available = true) := by
  by_cases hb : b = c
  · subst hb
    exact deliver_same h
  · exact ⟨_, _, _, _, _, (deliver_other h hb).1, .inl rfl⟩

/-- What the instances share, under a delivery: the events and the counter move at the end of a transaction only. -/
theorem deliver_shared (h : deliver c s = .next t) :
    (t.EV = s.EV ∨ (s.inst c).state = .awaitStop) ∧
    (∀ l, t.vote l = s.vote l ∨ l = s.params.BUS_ACTIVE_LEVEL ∧ (s.inst c).state = .awaitStop) ∧
    (s.SameFatalStatus t ∨ s.HALT = false ∧ t.HALT = true) ∧
    (t.PWR = s.PWR ∨ t.PWR = .awake) ∧
    t.sleepReq = s.sleepReq ∧ t.resp = s.resp ∧ t.drawn = s.drawn ∧ t.params = s.params ∧ t.inputs = s.inputs := by
  have unmoved {r : State} : r.SameFatalStatus r := ⟨rfl, rfl, rfl, rfl⟩
  rcases deliver_next h with rfl | ⟨kind, hrun, _, ⟨ev, htr⟩ | ⟨e, rfl⟩⟩
  · exact ⟨.inl rfl, fun _ => .inl rfl, .inl unmoved, .inl rfl, rfl, rfl, rfl, rfl, rfl⟩
  · rcases htr.shared with ⟨_, _, _, rfl⟩ | ⟨_, hst, _, rfl⟩
    · exact ⟨.inl rfl, fun _ => .inl rfl, .inl unmoved, .inr rfl, rfl, rfl, rfl, rfl, rfl⟩
    · rw [State.delivering_inst_same, BusInstance.clearFlag_state] at hst
      refine ⟨.inr hst, fun l => ?_, .inl unmoved, .inr rfl, rfl, rfl, rfl, rfl, rfl⟩
      by_cases hl : l = s.params.BUS_ACTIVE_LEVEL
      · exact .inr ⟨hl, hst⟩
      · exact .inl ((s.delivering c kind).finished_vote_other hl c)
  · exact ⟨.inl rfl, fun _ => .inl rfl, .inr ⟨hrun, rfl⟩, .inr rfl, rfl, rfl, rfl, rfl, rfl⟩

end

/-! The obligations. -/

theorem State.SameFatalStatus.false_of_ne {s u : State} (h : s.SameFatalStatus u)
    (hne : u.HALT ≠ s.HALT ∨ u.FCODE ≠ s.FCODE ∨ u.FINFO ≠ s.FINFO ∨ u.haltOut ≠ s.haltOut) : False := by
  obtain ⟨hhalt, hcode, hinfo, hout⟩ := h
  simp [hhalt, hcode, hinfo, hout] at hne

/-- An `XSTART` for a busy BusInstance is refused (rules R37 and R127). -/
theorem exec_xstart_of_busy {s t : State} {b : BitVec 2} {mode : Mode} {paddr : BitVec 7} {raddr : Byte}
    {count : BitVec 3} {evid : BitVec 5} (hbusy : (s.inst b).available = false)
    (h : exec (.xstart b mode paddr raddr count evid) s = .next t) : ∃ r : Reason, t = s.refuse .host r := by
  have hgate : unlessBusy b s (conclude .host s (startTransaction b mode paddr raddr count evid s)) =
      .next (s.refuse .host .busy) := by
    rcases unlessBusy_cases b s _ with ⟨_, hg⟩ | ⟨hidle, _⟩
    · exact hg
    · exact absurd (hbusy.symm.trans hidle) (by decide)
  have h : checked .host _ s _ = .next t := h
  rw [hgate] at h
  rcases checked_cases .host _ s _ with ⟨_, hc⟩ | ⟨_, _, hc⟩ | ⟨_, _, hc⟩
  all_goals
    rw [hc] at h
    cases h
    exact ⟨_, rfl⟩

/-- Settles O15: an `XSTART` stops at the gate, and the descriptor is written by no other operation and by no
delivery. -/
theorem transactionInFlightKeepsItsDescriptor : Obligations.TransactionInFlightKeepsItsDescriptor := by
  intro s t b hbusy
  refine ⟨fun mode paddr raddr count evid h => ?_, fun h hreset => ?_⟩
  · obtain ⟨r, rfl⟩ := exec_xstart_of_busy hbusy h
    exact ⟨r.word, rfl⟩
  rcases step_next h with rfl | ⟨i, rest, htaken, _, htake⟩
  · exact ⟨rfl, rfl, rfl, rfl⟩
  cases i with
  | reset => exact absurd htaken hreset
  | deliver c =>
    obtain ⟨_, _, _, _, _, hinst, _⟩ := deliver_inst htake b
    rw [hinst]
    exact ⟨rfl, rfl, rfl, rfl⟩
  | word p w =>
    rcases takeWord_next htake with ⟨_, _, _, rfl⟩ | ⟨i, _, _, u, heff, _, _, _, rfl⟩
    · exact ⟨rfl, rfl, rfl, rfl⟩
    · exact (heff.inst b).descriptor.resolve_right fun ⟨hidle, _⟩ => absurd (hbusy.symm.trans hidle) (by decide)

/-- Settles O19: what an effect can do to each item, and what a delivery can do to each. -/
theorem onlyTheNamedOperationsWrite : Obligations.OnlyTheNamedOperationsWrite := by
  refine ⟨fun i s t b h => ?_, fun c s t b h => ?_⟩
  · obtain ⟨u, heff, _, _, _, rfl⟩ := exec_executed h
    have hinst := heff.inst b
    exact ⟨fun hne => hinst.state_rem.resolve_left (not_and_or.mpr hne), hinst.of_closed, hinst.of_opened,
      fun hne => (hinst.descriptor.resolve_left fun hkept => by simp [hkept] at hne).2, hinst.buf.resolve_left,
      fun hne => hinst.flags.resolve_left (not_and_or.mpr hne), hinst.enables.resolve_left, heff.events.resolve_left,
      fun l => (heff.votes l).resolve_left, fun hne => heff.fatalStatus.resolve_left (·.false_of_ne hne),
      heff.power.resolve_left, (heff.stream b).resolve_left, heff.sleepRequests.resolve_left, heff.params_inputs⟩
  · obtain ⟨_, available, _, _, _, hinst, hgate⟩ := deliver_inst h b
    have hopened : (t.inst b).available = (s.inst b).available ∨
        (s.inst c).state = .awaitStop ∧ (t.inst b).available = true := by rwa [hinst]
    obtain ⟨hevents, hvotes, hfatal, hpower, hrest⟩ := deliver_shared h
    refine ⟨fun hne => ?_, fun hidle => ?_, fun hbusy hidle => ?_, by rw [hinst], hevents.resolve_left,
      fun l => (hvotes l).resolve_left, fun hne => hfatal.resolve_left (·.false_of_ne hne), hpower.resolve_left, hrest⟩
    · by_contra hb
      obtain ⟨hsame, hout⟩ := deliver_other h hb
      simp [hsame, hout] at hne
    · rcases hopened with hkept | ⟨_, hopen⟩
      · exact hkept.trans hidle
      · exact hopen
    · rcases hopened with hkept | ⟨hst, _⟩
      · exact absurd (hbusy.symm.trans (hkept.symm.trans hidle)) (by decide)
      · exact hst

end Sys2Proof.Machine
end

section
/-! ### Sub-events of two instances (rule R82 (d)) -/

namespace Sys2Proof.Machine

/-! What a sub-event reads: the parameters, its own BusInstance, and whether there is a vote to release. What it writes,
besides waking the Host and its answer, is a `Move`. -/

/-- What a sub-event writes: the registers of its BusInstance, the actions on its stream, the votes it releases on
`BUS_ACTIVE_LEVEL`, and the events it posts. -/
structure Move where
  inst : BusInstance
  actions : List BusAction
  votes : BitVec 8
  events : Word

/-- Votes released on `BUS_ACTIVE_LEVEL` (rule R142). -/
def State.release (s : State) (votes : BitVec 8) : State :=
  s.setVote s.params.BUS_ACTIVE_LEVEL (s.vote s.params.BUS_ACTIVE_LEVEL - votes)

/-- A move of BusInstance `b`. -/
def State.move (s : State) (b : BitVec 2) (m : Move) : State :=
  (((s.release m.votes).setInst b m.inst).emit b m.actions).setEV (s.EV ||| m.events)

/-- A `SUBEV` that makes a move: the Host woken, the move, the answer (rule R167). -/
def State.perform (s : State) (b : BitVec 2) (m : Move) : State := (s.wakeUp.move b m).respond .sev true 0

/-- A move that releases no vote and posts no event. -/
def Move.ofInst (x : BusInstance) (actions : List BusAction) : Move := ⟨x, actions, 0, 0⟩

section
variable (s : State) (b : BitVec 2) (m : Move)

theorem State.emit_nil : s.emit b [] = s := by
  simp [State.emit, State.out]

theorem State.release_zero : s.release 0 = s := by
  simp [State.release, State.setVote, State.vote]

@[simp] theorem State.release_vote (votes : BitVec 8) :
    (s.release votes).vote s.params.BUS_ACTIVE_LEVEL = s.vote s.params.BUS_ACTIVE_LEVEL - votes :=
  State.setVote_vote_same ..

@[simp] theorem State.perform_params : (s.perform b m).params = s.params := rfl

@[simp] theorem State.perform_vote :
    (s.perform b m).vote s.params.BUS_ACTIVE_LEVEL = s.vote s.params.BUS_ACTIVE_LEVEL - m.votes :=
  s.release_vote m.votes

@[simp] theorem State.perform_inst_other {c : BitVec 2} (hc : c ≠ b) : (s.perform b m).inst c = s.inst c :=
  (s.wakeUp.release m.votes).setInst_inst_other hc m.inst

/-- From `s` to `u` BusInstance `b` alone is written: its registers are now `x`, its stream goes on with `actions`. -/
def WritesAlone (b : BitVec 2) (s u : State) (x : BusInstance) (actions : List BusAction) : Prop :=
  u.inst b = x ∧ (∀ c, c ≠ b → u.inst c = s.inst c) ∧ u.out b = s.out b ++ actions ∧
    (∀ c, c ≠ b → u.out c = s.out c) ∧ u = { s with bus := u.bus, busOut := u.busOut }

theorem WritesAlone.eq_move {s u : State} {b : BitVec 2} {x : BusInstance} {actions : List BusAction}
    (h : WritesAlone b s u x actions) : u = s.move b (.ofInst x actions) := by
  obtain ⟨hinst, hothers, hout, houts, hframe⟩ := h
  have hmove : s.move b (.ofInst x actions) = (s.setInst b x).emit b actions := by
    rw [State.move, Move.ofInst, State.release_zero, show s.EV ||| 0 = s.EV from BitVec.or_zero]
    rfl
  have hbus : u.bus = (s.setInst b x).bus := State.bus_ext fun c => by
    by_cases hc : c = b
    · rw [hc, hinst, State.setInst_inst_same]
    · rw [hothers c hc, State.setInst_inst_other s hc]
  have hbusOut : u.busOut = (s.emit b actions).busOut := State.out_ext fun c => by
    by_cases hc : c = b
    · rw [hc, hout, State.emit_out_same]
    · rw [houts c hc, State.emit_out_other s hc]
  rw [hmove, hframe, hbus, hbusOut]
  rfl

theorem State.setInst_comm {b c : BitVec 2} (hbc : b ≠ c) (x y : BusInstance) :
    (s.setInst b x).setInst c y = (s.setInst c y).setInst b x := by
  simp only [State.setInst, Vector.set_comm x y fun h => hbc (BitVec.eq_of_toNat_eq h)]

theorem State.emit_comm {b c : BitVec 2} (hbc : b ≠ c) (xs ys : List BusAction) :
    (s.emit b xs).emit c ys = (s.emit c ys).emit b xs := by
  have hswap := Vector.set_comm (s.out b ++ xs) (s.out c ++ ys) (xs := s.busOut) (hi := b.isLt) (hj := c.isLt)
    fun h => hbc (BitVec.eq_of_toNat_eq h)
  calc (s.emit b xs).emit c ys
      = { s with busOut := (s.busOut.set b.toNat (s.out b ++ xs)).set c.toNat ((s.emit b xs).out c ++ ys) } := rfl
    _ = { s with busOut := (s.busOut.set c.toNat (s.out c ++ ys)).set b.toNat ((s.emit c ys).out b ++ xs) } := by
      rw [State.emit_out_other s hbc.symm, State.emit_out_other s hbc, hswap]

theorem State.release_comm (v w : BitVec 8) : (s.release v).release w = (s.release w).release v := by
  have htwice (v w : BitVec 8) : (s.release v).release w =
      s.setVote s.params.BUS_ACTIVE_LEVEL (s.vote s.params.BUS_ACTIVE_LEVEL - v - w) := by
    simp [State.release, State.setVote, State.vote]
  rw [htwice, htwice, sub_right_comm]

/-- Moves of two instances commute: they write two BusInstances and two streams, votes subtract and events are ORed. -/
theorem State.perform_comm {b c : BitVec 2} (hbc : b ≠ c) (m n : Move) :
    (s.perform b m).perform c n = (s.perform c n).perform b m := by
  have hbus : ((s.perform b m).perform c n).bus = ((s.perform c n).perform b m).bus :=
    (congrArg State.bus (s.setInst_comm hbc m.inst n.inst) :)
  have hbusOut : ((s.perform b m).perform c n).busOut = ((s.perform c n).perform b m).busOut :=
    (congrArg State.busOut (s.emit_comm hbc m.actions n.actions) :)
  have hvotes : ((s.perform b m).perform c n).VOTE = ((s.perform c n).perform b m).VOTE :=
    (congrArg State.VOTE (s.release_comm m.votes n.votes) :)
  have hevents : ((s.perform b m).perform c n).EV = ((s.perform c n).perform b m).EV := by
    change s.EV ||| m.events ||| n.events = s.EV ||| n.events ||| m.events
    rw [BitVec.or_assoc, BitVec.or_comm m.events, ← BitVec.or_assoc]
  calc (s.perform b m).perform c n
      = { (s.perform c n).perform b m with
          bus := ((s.perform b m).perform c n).bus
          busOut := ((s.perform b m).perform c n).busOut
          VOTE := ((s.perform b m).perform c n).VOTE
          EV := ((s.perform b m).perform c n).EV } := rfl
    _ = (s.perform c n).perform b m := by rw [hbus, hbusOut, hvotes, hevents]

end

/-! Which move a handler makes. -/

theorem goto_writesAlone (b : BitVec 2) (s : State) (st : BtsmState) :
    WritesAlone b s (s.goto b st) { s.inst b with state := st } [] :=
  ⟨State.goto_inst_same s b st, fun _ hc => State.goto_inst_other s hc st, (List.append_nil _).symm, fun _ _ => rfl,
    rfl⟩

theorem sendByte_writesAlone (b : BitVec 2) (s : State) (r : BitVec 3) :
    WritesAlone b s (sendByte b s r) { s.inst b with rem := r, state := if r = 0 then .awaitStop else (s.inst b).state }
      ([.txdata (laneOf (s.inst b).buf r.toNat)] ++ if r = 0 then [.stop] else []) := by
  rw [WritesAlone, ← List.append_assoc]
  exact sendByte_spec b s r

/-- A handler `run` of BusInstance `b` that makes the same move from every state in which that BusInstance is `x`. -/
def MovesAlone (b : BitVec 2) (x : BusInstance) (run : State → State) : Prop :=
  ∃ y actions, ∀ s : State, s.inst b = x → run s = s.move b (.ofInst y actions)

section
variable {b : BitVec 2} {x : BusInstance}

theorem MovesAlone.of_writesAlone {run : State → State} {y : BusInstance} {actions : List BusAction}
    (h : ∀ s, s.inst b = x → WritesAlone b s (run s) y actions) : MovesAlone b x run :=
  ⟨y, actions, fun s hx => (h s hx).eq_move⟩

theorem ackAddress_movesAlone : MovesAlone b x (ackAddress b) :=
  .of_writesAlone fun s hx => (hx ▸ ackAddress_spec b s :)

theorem ackRegister_movesAlone : MovesAlone b x (ackRegister b) :=
  .of_writesAlone fun s hx => (hx ▸ ackRegister_spec b s :)

theorem goto_movesAlone (st : BtsmState) : MovesAlone b x (·.goto b st) :=
  .of_writesAlone fun s hx => (hx ▸ goto_writesAlone b s st :)

theorem sendByte_movesAlone (r : BitVec 3) : MovesAlone b x (sendByte b · r) :=
  .of_writesAlone fun s hx => (hx ▸ sendByte_writesAlone b s r :)

theorem receiveByte_movesAlone (v : Byte) (r : BitVec 3) : MovesAlone b x (receiveByte b v · r) :=
  .of_writesAlone fun s hx => (hx ▸ receiveByte_spec b v s r :)

/-- Releasing a vote, opening the gate and posting the event. -/
theorem finishTransaction_eq_move {s : State} (hvote : s.vote s.params.BUS_ACTIVE_LEVEL ≠ 0) :
    finishTransaction b s =
      .done (s.move b ⟨{ s.inst b with available := true, state := .idle }, [], 1, eventMask (s.inst b).evid⟩) := by
  rcases finishTransaction_cases b s with ⟨hzero, _⟩ | ⟨_, hf⟩
  · exact absurd hzero hvote
  · rw [hf, State.move, State.emit_nil]
    rfl

end

/-- With parameters `c` and registers `x`, a sub-event `ev` of BusInstance `b` makes move `m` wherever the votes it
releases are there. -/
def Makes (c : Params) (b : BitVec 2) (x : BusInstance) (ev : SubEvent) (m : Move) : Prop :=
  ∀ s : State, s.params = c → s.inst b = x → m.votes ≤ s.vote c.BUS_ACTIVE_LEVEL → handle b ev s = .done (s.move b m)

/-- It releases no vote, so there are enough of them, however many (`v`) there are. -/
theorem MovesAlone.makes {b : BitVec 2} {x : BusInstance} {c : Params} {ev : SubEvent} {run : State → State}
    (hrun : MovesAlone b x run) (v : BitVec 8)
    (h : ∀ s : State, s.params = c → s.inst b = x → handle b ev s = .done (run s)) :
    ∃ m, m.votes ≤ v ∧ Makes c b x ev m := by
  obtain ⟨y, actions, hmove⟩ := hrun
  exact ⟨.ofInst y actions, Nat.zero_le _, fun s hc hx _ => by rw [h s hc hx, hmove s hx]⟩

/-- A handler that is done made a move, and makes it again whatever the other instances hold. -/
theorem handle_done_makes {b : BitVec 2} {ev : SubEvent} {s u : State} (h : handle b ev s = .done u) :
    ∃ m : Move, m.votes ≤ s.vote s.params.BUS_ACTIVE_LEVEL ∧ Makes s.params b (s.inst b) ev m := by
  cases handle_done h with
  | addressAck hst => exact ackAddress_movesAlone.makes _ fun _ _ hx => by simp [handle, hx, hst]
  | registerAck hst => exact ackRegister_movesAlone.makes _ fun _ _ hx => by simp [handle, hx, hst]
  | restartAck hst =>
    have hadv : s.params.READ_ADDR_ACK = .advance := by
      cases hr : s.params.READ_ADDR_ACK with
      | advance => rfl
      | fatal => simp [handle, hst, ackReadRestart, hr] at h
    exact (goto_movesAlone .receivingData).makes _ fun _ hc hx => by simp [handle, hx, hst, ackReadRestart, hc, hadv]
  | sent hst hlo hhi =>
    exact (sendByte_movesAlone ((s.inst b).rem - 1)).makes _ fun _ hc hx => by
      simp [handle, hx, hst, withDataByte, hc, hlo, hhi]
  | received v hst hlo hhi =>
    exact (receiveByte_movesAlone v ((s.inst b).rem - 1)).makes _ fun _ hc hx => by
      rcases hst with hst | hst <;> simp [handle, hx, hst, withDataByte, hc, hlo, hhi]
  | finished hst hvote =>
    refine ⟨⟨{ s.inst b with available := true, state := .idle }, [], 1, eventMask (s.inst b).evid⟩, by bv_omega,
      fun s' hc hx hle => ?_⟩
    have hvote' : s'.vote s'.params.BUS_ACTIVE_LEVEL ≠ 0 := by
      rw [hc]
      bv_omega
    rw [← hx, ← finishTransaction_eq_move hvote']
    simp [handle, hx, hst]

/-! A `SUBEV` and two of them. -/

/-- No operation leaves the halted state. -/
theorem exec_running {i : Instr} {s t : State} (h : exec i s = .next t) (ht : t.HALT = false) : s.HALT = false := by
  obtain ⟨u, heff, _, _, _, rfl⟩ := exec_executed h
  rcases heff.fatalStatus with ⟨hhalt, _⟩ | ⟨hrun, _⟩
  · exact hhalt.symm.trans ht
  · exact hrun

/-- No operation changes the parameters (rule R323). -/
theorem exec_params {i : Instr} {s t : State} (h : exec i s = .next t) : t.params = s.params := by
  obtain ⟨u, heff, _, _, _, rfl⟩ := exec_executed h
  exact heff.params_inputs.1

theorem Makes.exec_subev {c : Params} {b : BitVec 2} {x : BusInstance} {ev : SubEvent} {m : Move}
    (hm : Makes c b x ev m) {s : State} (hrun : s.HALT = false) (hb : b.toNat < s.params.NBUS) (hc : s.params = c)
    (hx : s.inst b = x) (hvotes : m.votes ≤ s.vote c.BUS_ACTIVE_LEVEL) :
    exec (.subev b ev) s = .next (s.perform b m) := by
  rw [execSubev_passed hrun (decide_eq_true hb), hm s.wakeUp hc hx hvotes]
  rfl

/-- A `SUBEV` that leaves the block running performed a move. -/
theorem exec_subev_makes {b : BitVec 2} {ev : SubEvent} {s t : State} (h : exec (.subev b ev) s = .next t)
    (ht : t.HALT = false) (hb : b.toNat < s.params.NBUS) :
    ∃ m : Move, m.votes ≤ s.vote s.params.BUS_ACTIVE_LEVEL ∧ t = s.perform b m ∧
      Makes s.params b (s.inst b) ev m := by
  have hrun := exec_running h ht
  have hpassed := execSubev_passed (ev := ev) hrun (decide_eq_true hb)
  rcases conclude_next (hpassed.symm.trans h) with ⟨u, hdone, _⟩ | ⟨e, _, rfl⟩
  · obtain ⟨m, hvotes, hm⟩ := handle_done_makes hdone
    have hperform := hm.exec_subev hrun hb rfl rfl hvotes
    exact ⟨m, hvotes, Host.Outcome.next.inj (h.symm.trans hperform), hm⟩
  · cases ht

theorem execAll_pair {i j : Instr} {s t : State} :
    execAll [i, j] s = .next t ↔ ∃ u, exec i s = .next u ∧ exec j u = .next t := by
  cases hi : exec i s with
  | next u => cases hj : exec j u <;> simp [execAll, hi, hj]
  | fault f => simp [execAll, hi]
  | refused r => simp [execAll, hi]

/-- Settles O47: each sub-event makes the same move whichever comes first, and the moves commute. -/
theorem subEventsOfTwoInstancesCommute : Obligations.SubEventsOfTwoInstancesCommute := by
  intro s t b c ev ev' hbc hrun hb hc h ht
  obtain ⟨u, hfirst, hsecond⟩ := execAll_pair.mp h
  have hparams := exec_params hfirst
  obtain ⟨m, hm, rfl, hmmakes⟩ := exec_subev_makes hfirst (exec_running hsecond ht) hb
  obtain ⟨n, hn, rfl, hnmakes⟩ := exec_subev_makes hsecond ht (hparams ▸ hc)
  rw [State.perform_params, State.perform_vote] at hn
  rw [State.perform_params, State.perform_inst_other s b m hbc.symm] at hnmakes
  refine execAll_pair.mpr ⟨s.perform c n, hnmakes.exec_subev hrun hc rfl rfl ?_, ?_⟩
  · bv_omega
  · rw [State.perform_comm s hbc]
    refine hmmakes.exec_subev hrun hb rfl (s.perform_inst_other c n hbc) ?_
    rw [State.perform_vote]
    bv_omega

end Sys2Proof.Machine
end

section
/-! ### The formats of a command word (rules R100 to R103, R112) -/

namespace Sys2Proof

/-! Words put together and taken apart. -/

/-- Two parts make a word exactly when they are the word's two fields. (Cite it through a hypothesis, as
`extractLsb'_append_cases`: simp then matches the widths of `encode`'s words, which are sums.) -/
theorem append_eq_iff {n m : Nat} {a : BitVec n} {b : BitVec m} {w : BitVec (n + m)} :
    a ++ b = w ↔ a = w.extractLsb' m n ∧ b = w.extractLsb' 0 m := by
  constructor
  · rintro rfl
    exact ⟨BitVec.extractLsb'_append_eq_left.symm, BitVec.extractLsb'_append_eq_right.symm⟩
  · rintro ⟨rfl, rfl⟩
    exact BitVec.extractLsb'_append_extractLsb'

/-- A field of a field is a field. (Cite it through a hypothesis, as `append_eq_iff`.) -/
theorem extractLsb'_extractLsb' {k : Nat} (w : BitVec k) {lo len start n : Nat} (h : start + n ≤ len) :
    (w.extractLsb' lo len).extractLsb' start n = w.extractLsb' (lo + start) n := by
  ext i hi
  have hlt : start + i < len := by omega
  simp [hlt, Nat.add_assoc]

/-! The formats. -/

/-- `w` is made of the fields of operation `i`, highest first, the reserved ones zero (the formats of rule R102 with the
opcodes of rule R112). -/
def Instr.Fits (w : Word) : Instr → Prop
  | .xstart bus mode paddr raddr count evid =>
    field w 28 4 = 0x1 ∧ field w 26 2 = bus ∧ field w 25 1 = mode.code ∧ field w 18 7 = paddr ∧ field w 10 8 = raddr ∧
      field w 7 3 = count ∧ field w 5 2 = 0 ∧ field w 0 5 = evid
  | .xstat bus => field w 28 4 = 0x2 ∧ field w 26 2 = bus ∧ field w 0 26 = 0
  | .bufwr bus lane byte =>
    field w 28 4 = 0x3 ∧ field w 26 2 = bus ∧ field w 24 2 = lane ∧ field w 8 16 = 0 ∧ field w 0 8 = byte
  | .bufrd bus => field w 28 4 = 0x4 ∧ field w 26 2 = bus ∧ field w 0 26 = 0
  | .evpost evid => field w 28 4 = 0x5 ∧ field w 5 23 = 0 ∧ field w 0 5 = evid
  | .evclr evid => field w 28 4 = 0x6 ∧ field w 5 23 = 0 ∧ field w 0 5 = evid
  | .evpend => field w 28 4 = 0x7 ∧ field w 0 28 = 0
  | .emblk level => field w 28 4 = 0x8 ∧ field w 3 25 = 0 ∧ field w 0 3 = level
  | .emunblk level => field w 28 4 = 0x9 ∧ field w 3 25 = 0 ∧ field w 0 3 = level
  | .emcda => field w 28 4 = 0xA ∧ field w 0 28 = 0
  | .emsleep => field w 28 4 = 0xB ∧ field w 0 28 = 0
  | .subev bus ev =>
    field w 28 4 = 0xC ∧ field w 26 2 = bus ∧ field w 24 2 = ev.kind.code ∧ field w 8 16 = 0 ∧ field w 0 8 = ev.byte
  | .irqraise bus ev =>
    field w 28 4 = 0xD ∧ field w 26 2 = bus ∧ field w 24 2 = 0 ∧ field w 22 2 = ev.kind.code ∧ field w 8 14 = 0 ∧
      field w 0 8 = ev.byte
  | .irqen bus ien =>
    field w 28 4 = 0xD ∧ field w 26 2 = bus ∧ field w 24 2 = 1 ∧ field w 3 21 = 0 ∧ field w 0 3 = ien
  | .irqstat bus => field w 28 4 = 0xD ∧ field w 26 2 = bus ∧ field w 24 2 = 2 ∧ field w 0 24 = 0
  | .fstat => field w 28 4 = 0xE ∧ field w 24 4 = 0 ∧ field w 0 24 = 0
  | .wake => field w 28 4 = 0xE ∧ field w 24 4 = 1 ∧ field w 0 24 = 0

theorem encode_eq_iff {w : Word} {i : Instr} : encode i = w ↔ i.Fits w := by
  have cut := @append_eq_iff
  have nested := @extractLsb'_extractLsb'
  cases i
  all_goals
    simp (disch := decide) only [encode, Instr.Fits, field, cut, nested, and_assoc, eq_comm, Nat.reduceAdd,
      BitVec.ofNat_eq_ofNat]

/-! Reading the formats. -/

theorem field_eq_of_toNat_eq {w : Word} {lo n v : Nat} (h : (field w lo n).toNat = v) :
    field w lo n = BitVec.ofNat n v := by
  rw [← h, BitVec.ofNat_toNat, BitVec.setWidth_eq]

@[simp] theorem requireZero_zero_bits {n : Nat} (e : Except DecodeError Instr) : requireZero 0#n e = e :=
  requireZero_zero e

@[simp] theorem code_modeOfCode (c : BitVec 1) : (modeOfCode c).code = c := by
  revert c
  decide

/-- The sub-event formats: the operation decoded has the sub-event of the two fields (rule R103). -/
theorem decodeSubEvent_map_ok {f : SubEvent → Instr} {k : BitVec 2} {v : Byte} {i : Instr}
    (h : (decodeSubEvent k v).map f = .ok i) : ∃ ev, k = ev.kind.code ∧ v = ev.byte ∧ i = f ev := by
  cases hev : decodeSubEvent k v with
  | error e =>
    rw [hev] at h
    cases h
  | ok ev =>
    rw [hev] at h
    cases h
    obtain ⟨hkind, hbyte⟩ := decodeSubEvent_ok hev
    exact ⟨ev, hkind, hbyte, rfl⟩

theorem fits_of_decodeGroupD {w : Word} {i : Instr} (hop : field w 28 4 = 0xD) (h : decodeGroupD w = .ok i) :
    i.Fits w := by
  unfold decodeGroupD at h
  split at h
  case h_1 hfn =>
    obtain ⟨hzero, hi⟩ := requireZero_ok h
    obtain ⟨ev, hkind, hbyte, rfl⟩ := decodeSubEvent_map_ok hi
    exact ⟨hop, rfl, field_eq_of_toNat_eq hfn, hkind, hzero, hbyte⟩
  case h_2 hfn =>
    obtain ⟨hzero, hi⟩ := requireZero_ok h
    cases hi
    exact ⟨hop, rfl, field_eq_of_toNat_eq hfn, hzero, rfl⟩
  case h_3 hfn =>
    obtain ⟨hzero, hi⟩ := requireZero_ok h
    cases hi
    exact ⟨hop, rfl, field_eq_of_toNat_eq hfn, hzero⟩
  case h_4 => cases h

theorem fits_of_decodeGroupE {w : Word} {i : Instr} (hop : field w 28 4 = 0xE) (h : decodeGroupE w = .ok i) :
    i.Fits w := by
  unfold decodeGroupE at h
  split at h
  case h_3 => cases h
  all_goals next hfn =>
    obtain ⟨hzero, hi⟩ := requireZero_ok h
    cases hi
    exact ⟨hop, field_eq_of_toNat_eq hfn, hzero⟩

/-- The decoder reads nothing but the formats. -/
theorem fits_of_decode {w : Word} {i : Instr} (h : decode w = .ok i) : i.Fits w := by
  unfold decode at h
  split at h
  case h_1 hop =>
    obtain ⟨hzero, hi⟩ := requireZero_ok h
    cases hi
    exact ⟨field_eq_of_toNat_eq hop, rfl, (code_modeOfCode _).symm, rfl, rfl, rfl, hzero, rfl⟩
  case h_12 hop =>
    obtain ⟨hzero, hi⟩ := requireZero_ok h
    obtain ⟨ev, hkind, hbyte, rfl⟩ := decodeSubEvent_map_ok hi
    exact ⟨field_eq_of_toNat_eq hop, rfl, hkind, hzero, hbyte⟩
  case h_13 hop => exact fits_of_decodeGroupD (field_eq_of_toNat_eq hop) h
  case h_14 hop => exact fits_of_decodeGroupE (field_eq_of_toNat_eq hop) h
  case h_15 => cases h
  all_goals next hop =>
    obtain ⟨hzero, hi⟩ := requireZero_ok h
    cases hi
    simp [Instr.Fits, field_eq_of_toNat_eq hop, hzero]

/-- The decoder reads all of the formats. -/
theorem decode_of_fits {w : Word} {i : Instr} (h : i.Fits w) : decode w = .ok i := by
  cases i
  all_goals
    simp only [Instr.Fits] at h
    simp [decode, decodeGroupD, decodeGroupE, h, Except.map]

/-- The encoder's word of an operation decodes to the operation. -/
theorem decode_of_encode_eq {w : Word} {i : Instr} (h : encode i = w) : decode w = .ok i :=
  decode_of_fits (encode_eq_iff.mp h)

/-! The obligations. -/

/-- Settles O1: an operation's word is made of the operation's fields, and the decoder reads these fields. -/
theorem decodeInvertsEncode : Obligations.DecodeInvertsEncode := fun _ => decode_of_encode_eq rfl

/-- Settles O2: a word that decodes is made of the operation's fields, and only the operation's word is. -/
theorem encodeInvertsDecode : Obligations.EncodeInvertsDecode := fun _ _ h => encode_eq_iff.mpr (fits_of_decode h)

/-- Settles O4: each of the words is the encoder's word of its operation. -/
theorem sampleWordsDecode : Obligations.SampleWordsDecode := by
  unfold Obligations.SampleWordsDecode
  and_intros
  all_goals exact decode_of_encode_eq rfl

/-- Settles O5: the address byte is put together from the two. -/
theorem addressByteHoldsAddressAndDirection : Obligations.AddressByteHoldsAddressAndDirection :=
  fun _ _ => ⟨BitVec.extractLsb'_append_eq_left, BitVec.extractLsb'_append_eq_right⟩

/-- The kind of a bus action stands above its data byte, so the two are added (rule R120). -/
theorem txdata_word (d : Byte) : (Machine.BusAction.txdata d).word = 0x400 + d.setWidth 11 := by
  have hd : d.toNat < 2 ^ 8 := d.isLt
  have hsum : 4 <<< 8 ||| d.toNat = 4 <<< 8 + d.toNat := (Nat.shiftLeft_add_eq_or_of_lt hd 4).symm
  apply BitVec.eq_of_toNat_eq
  rw [Machine.BusAction.word, BitVec.toNat_append, BitVec.toNat_add, BitVec.toNat_setWidth]
  change 4 <<< 8 ||| d.toNat = (0x400 + d.toNat % 2 ^ 11) % 2 ^ 11
  omega

/-- Settles O6: the words without a byte are fixed, and `txdata_word` is the other row. -/
theorem busActionWordsAreThoseOfTheTable : Obligations.BusActionWordsAreThoseOfTheTable :=
  ⟨rfl, rfl, rfl, rfl, txdata_word⟩

end Sys2Proof
end

section
/-! ### The rows of the opcode table (rules R103, R112 and R128) -/

namespace Sys2Proof

open Machine

/-! A word under a mask. -/

/-- The mask of the field `n` bits wide whose lowest bit is `lo`. -/
def fieldMask (lo n : Nat) : Word := (BitVec.allOnes n).setWidth 32 <<< lo

/-- The word whose field at `lo` is `v` and whose other bits are zero. -/
def fieldBits {n : Nat} (lo : Nat) (v : BitVec n) : Word := v.setWidth 32 <<< lo

theorem field_fieldBits {lo n : Nat} (v : BitVec n) (h : lo + n ≤ 32) : field (fieldBits lo v) lo n = v := by
  ext i hi
  have hlt : lo + i < 32 := by omega
  simp [field, fieldBits, hlt, hi]

theorem and_fieldMask (w : Word) (lo n : Nat) : w &&& fieldMask lo n = fieldBits lo (field w lo n) := by
  ext i hi
  by_cases hlo : i < lo
  · simp [fieldMask, fieldBits, field, hlo]
  · have hidx : lo + (i - lo) = i := by omega
    simp [fieldMask, fieldBits, field, hlo, hidx, BitVec.getLsbD_eq_getElem hi, Bool.and_comm]

/-- Under a field's mask a word shows the field. -/
theorem and_fieldMask_eq_iff {w : Word} {lo n : Nat} {v : BitVec n} (h : lo + n ≤ 32) :
    w &&& fieldMask lo n = fieldBits lo v ↔ field w lo n = v := by
  rw [and_fieldMask]
  refine ⟨fun hbits => ?_, fun hv => by rw [hv]⟩
  rw [← field_fieldBits v h, ← hbits, field_fieldBits _ h]

theorem fieldBits_and_fieldMask {lo n : Nat} (v : BitVec n) (h : lo + n ≤ 32) :
    fieldBits lo v &&& fieldMask lo n = fieldBits lo v :=
  (and_fieldMask_eq_iff h).mpr (field_fieldBits v h)

theorem fieldMask_and_fieldMask {lo n lo' n' : Nat} (h : lo' + n' ≤ lo) : fieldMask lo n &&& fieldMask lo' n' = 0 := by
  ext i hi
  simp [fieldMask]
  omega

/-- What a word shows under two masks with no bit in common, it shows under the first. -/
theorem and_eq_of_and_or_eq_or {w m m' b b' : Word} (hdisj : m &&& m' = 0) (hb : b &&& m = b) (hb' : b' &&& m' = b')
    (h : w &&& (m ||| m') = b ||| b') : w &&& m = b := by
  ext i hi
  have hword := congrArg (·[i]) h
  have hapart := congrArg (·[i]) hdisj
  have hbits := congrArg (·[i]) hb
  have hbits' := congrArg (·[i]) hb'
  simp only [BitVec.getElem_and, BitVec.getElem_or] at *
  grind

/-- Under two masks with no bit in common a word shows what it shows under each. -/
theorem and_or_eq_or_iff {w m m' b b' : Word} (hdisj : m &&& m' = 0) (hb : b &&& m = b) (hb' : b' &&& m' = b') :
    w &&& (m ||| m') = b ||| b' ↔ w &&& m = b ∧ w &&& m' = b' := by
  refine ⟨fun h => ⟨and_eq_of_and_or_eq_or hdisj hb hb' h, ?_⟩, fun ⟨h, h'⟩ => ?_⟩
  · rw [BitVec.or_comm m, BitVec.or_comm b] at h
    exact and_eq_of_and_or_eq_or (BitVec.and_comm m m' ▸ hdisj) hb' hb h
  · rw [BitVec.and_or_distrib_left, h, h']

theorem or_and_or_eq {m m' b b' : Word} (hb : b &&& m = b) (hb' : b' &&& m' = b') :
    (b ||| b') &&& (m ||| m') = b ||| b' := by
  ext i hi
  have hbits := congrArg (·[i]) hb
  have hbits' := congrArg (·[i]) hb'
  simp only [BitVec.getElem_and, BitVec.getElem_or] at *
  grind

/-! The rows. -/

/-- A row of a format with one reserved field, `n` bits wide at `lo`. -/
def formatRow (op : BitVec 4) (lo n : Nat) (port : Port) : OpcodeRow :=
  ⟨fieldBits 28 op ||| fieldBits lo 0#n, fieldMask 28 4 ||| fieldMask lo n, port⟩

/-- A row of a group: a format with a function field at `fnLo` above one reserved field. -/
def groupRow (op : BitVec 4) (fnLo : Nat) {k : Nat} (fn : BitVec k) (lo n : Nat) (port : Port) : OpcodeRow :=
  ⟨fieldBits 28 op ||| fieldBits fnLo fn ||| fieldBits lo 0#n,
    fieldMask 28 4 ||| fieldMask fnLo k ||| fieldMask lo n, port⟩

theorem formatRow_selects_iff {op : BitVec 4} {lo n : Nat} {port : Port} {w : Word} (h : lo + n ≤ 28) :
    (formatRow op lo n port).Selects w ↔ field w 28 4 = op ∧ field w lo n = 0 := by
  have hop : 28 + 4 ≤ 32 := by decide
  have hn : lo + n ≤ 32 := by omega
  rw [← and_fieldMask_eq_iff hop, ← and_fieldMask_eq_iff hn]
  exact and_or_eq_or_iff (fieldMask_and_fieldMask h) (fieldBits_and_fieldMask op hop) (fieldBits_and_fieldMask 0 hn)

theorem groupRow_selects_iff {op : BitVec 4} {fnLo k : Nat} {fn : BitVec k} {lo n : Nat} {port : Port} {w : Word}
    (hfn : fnLo + k ≤ 28) (h : lo + n ≤ fnLo) :
    (groupRow op fnLo fn lo n port).Selects w ↔ field w 28 4 = op ∧ field w fnLo k = fn ∧ field w lo n = 0 := by
  have hop : 28 + 4 ≤ 32 := by decide
  have hk : fnLo + k ≤ 32 := by omega
  have hn : lo + n ≤ 32 := by omega
  have hopBits := fieldBits_and_fieldMask op hop
  have hfnBits := fieldBits_and_fieldMask fn hk
  have hdisj : (fieldMask 28 4 ||| fieldMask fnLo k) &&& fieldMask lo n = 0 := by
    rw [BitVec.and_or_distrib_right, fieldMask_and_fieldMask (by omega), fieldMask_and_fieldMask h, BitVec.or_self]
  rw [← and_assoc, ← and_fieldMask_eq_iff hop, ← and_fieldMask_eq_iff hk, ← and_fieldMask_eq_iff hn,
    ← and_or_eq_or_iff (fieldMask_and_fieldMask hfn) hopBits hfnBits]
  exact and_or_eq_or_iff hdisj (or_and_or_eq hopBits hfnBits) (fieldBits_and_fieldMask 0 hn)

/-- The row of an operation: its opcode and function, the place of its reserved field, and its port. -/
def Instr.row : Instr → OpcodeRow
  | .xstart _ _ _ _ _ _ => formatRow 0x1 5 2 .host
  | .xstat _ => formatRow 0x2 0 26 .host
  | .bufwr _ _ _ => formatRow 0x3 8 16 .host
  | .bufrd _ => formatRow 0x4 0 26 .host
  | .evpost _ => formatRow 0x5 5 23 .host
  | .evclr _ => formatRow 0x6 5 23 .host
  | .evpend => formatRow 0x7 0 28 .host
  | .emblk _ => formatRow 0x8 3 25 .host
  | .emunblk _ => formatRow 0x9 3 25 .host
  | .emcda => formatRow 0xA 0 28 .host
  | .emsleep => formatRow 0xB 0 28 .host
  | .subev _ _ => formatRow 0xC 8 16 .sev
  | .irqraise _ _ => groupRow 0xD 24 0#2 8 14 .env
  | .irqen _ _ => groupRow 0xD 24 1#2 3 21 .host
  | .irqstat _ => groupRow 0xD 24 2#2 0 24 .host
  | .fstat => groupRow 0xE 24 0#4 0 24 .host
  | .wake => groupRow 0xE 24 1#4 0 24 .env

/-- One operation of each kind, in the order of the table (rule R112). -/
def oneOfEach : List Instr :=
  [.xstart 0 .write 0 0 0 0, .xstat 0, .bufwr 0 0 0, .bufrd 0, .evpost 0, .evclr 0, .evpend, .emblk 0, .emunblk 0,
   .emcda, .emsleep, .subev 0 .ack, .irqraise 0 .ack, .irqen 0 0, .irqstat 0, .fstat, .wake]

theorem opcodeRows_eq_map_row : opcodeRows = oneOfEach.map Instr.row := by decide

theorem Instr.row_mem (i : Instr) : i.row ∈ opcodeRows := by
  rw [opcodeRows_eq_map_row]
  cases i
  all_goals simp [Instr.row, oneOfEach]

theorem Instr.row_port (i : Instr) : i.row.port = i.port := by cases i <;> rfl

theorem Instr.Fits.row_selects {w : Word} {i : Instr} (h : i.Fits w) : i.row.Selects w := by
  cases i
  all_goals
    simp only [Instr.Fits] at h
    simp [Instr.row, formatRow_selects_iff, groupRow_selects_iff, h]

/-- Two rows differ in a bit that both masks cover. -/
theorem opcodeRows_apart :
    ∀ r ∈ opcodeRows, ∀ r' ∈ opcodeRows, r.bits &&& r'.mask = r'.bits &&& r.mask → r = r' := by decide

/-- No word selects two rows. -/
theorem row_eq_of_selects {r r' : OpcodeRow} {w : Word} (hr : r ∈ opcodeRows) (hr' : r' ∈ opcodeRows)
    (h : r.Selects w) (h' : r'.Selects w) : r = r' := by
  refine opcodeRows_apart r hr r' hr' ?_
  rw [← h, ← h', BitVec.and_assoc, BitVec.and_assoc, BitVec.and_comm r.mask]

/-! The fields of a sub-event. -/

/-- Rule R103's conditions say that the two fields are a sub-event's. -/
theorem subEventFieldsLegal_iff {k : BitVec 2} {v : Byte} :
    SubEventFieldsLegal k v ↔ ∃ ev : SubEvent, k = ev.kind.code ∧ v = ev.byte := by
  constructor
  · rintro ⟨hkind, hbyte⟩
    by_cases hrx : k = 1
    · exact ⟨.rx v, hrx, rfl⟩
    by_cases hack : k = 0
    · exact ⟨.ack, hack, hbyte hrx⟩
    · have hstop : k = 2 := by bv_omega
      exact ⟨.stop, hstop, hbyte hrx⟩
  · rintro ⟨ev, rfl, rfl⟩
    cases ev <;> simp [SubEventFieldsLegal, SubEvent.kind, Kind.code, SubEvent.byte]

/-- The conditions rule R103 adds to the rows of `SUBEV` and `IRQRAISE`. -/
def SubEventRowsLegal (w : Word) : Prop :=
  (field w 28 4 = 0xC → SubEventFieldsLegal (field w 24 2) (field w 0 8)) ∧
  (field w 28 4 = 0xD → field w 24 2 = 0 → SubEventFieldsLegal (field w 22 2) (field w 0 8))

theorem Instr.Fits.subEventRowsLegal {w : Word} {i : Instr} (h : i.Fits w) : SubEventRowsLegal w := by
  cases i
  case subev bus ev =>
    obtain ⟨hop, _, hkind, _, hbyte⟩ := h
    exact ⟨fun _ => subEventFieldsLegal_iff.mpr ⟨ev, hkind, hbyte⟩, fun hD => by simp [hop] at hD⟩
  case irqraise bus ev =>
    obtain ⟨hop, _, _, hkind, _, hbyte⟩ := h
    exact ⟨fun hC => by simp [hop] at hC, fun _ _ => subEventFieldsLegal_iff.mpr ⟨ev, hkind, hbyte⟩⟩
  all_goals
    simp only [Instr.Fits] at h
    simp [SubEventRowsLegal, h]

/-- A word that selects a row, with a legal sub-event where the row has one, fits an operation: the row's, with the word's
fields for its operands. -/
theorem exists_fits_of_row_selects {w : Word} (i : Instr) (h : i.row.Selects w) (hlegal : SubEventRowsLegal w) :
    ∃ j : Instr, j.Fits w := by
  obtain ⟨hsubev, hraise⟩ := hlegal
  cases i
  all_goals simp (disch := decide) only [Instr.row, formatRow_selects_iff, groupRow_selects_iff] at h
  case xstart =>
    obtain ⟨hop, hzero⟩ := h
    exact ⟨.xstart _ (modeOfCode _) _ _ _ _, hop, rfl, (code_modeOfCode _).symm, rfl, rfl, rfl, hzero, rfl⟩
  case bufwr =>
    obtain ⟨hop, hzero⟩ := h
    exact ⟨.bufwr _ _ _, hop, rfl, rfl, hzero, rfl⟩
  case subev =>
    obtain ⟨hop, hzero⟩ := h
    obtain ⟨ev, hkind, hbyte⟩ := subEventFieldsLegal_iff.mp (hsubev hop)
    exact ⟨.subev _ ev, hop, rfl, hkind, hzero, hbyte⟩
  case irqraise =>
    obtain ⟨hop, hfn, hzero⟩ := h
    obtain ⟨ev, hkind, hbyte⟩ := subEventFieldsLegal_iff.mp (hraise hop hfn)
    exact ⟨.irqraise _ ev, hop, rfl, hfn, hkind, hzero, hbyte⟩
  case irqen =>
    obtain ⟨hop, hfn, hzero⟩ := h
    exact ⟨.irqen _ _, hop, rfl, hfn, hzero, rfl⟩
  case irqstat =>
    obtain ⟨hop, hfn, hzero⟩ := h
    exact ⟨.irqstat _, hop, rfl, hfn, hzero⟩
  case xstat => exact ⟨.xstat _, h.1, rfl, h.2⟩
  case bufrd => exact ⟨.bufrd _, h.1, rfl, h.2⟩
  case evpost => exact ⟨.evpost _, h.1, h.2, rfl⟩
  case evclr => exact ⟨.evclr _, h.1, h.2, rfl⟩
  case emblk => exact ⟨.emblk _, h.1, h.2, rfl⟩
  case emunblk => exact ⟨.emunblk _, h.1, h.2, rfl⟩
  case evpend => exact ⟨.evpend, h⟩
  case emcda => exact ⟨.emcda, h⟩
  case emsleep => exact ⟨.emsleep, h⟩
  case fstat => exact ⟨.fstat, h⟩
  case wake => exact ⟨.wake, h⟩

/-! The obligation, and the port column. -/

/-- Settles O3: a word that decodes selects its operation's row, and a word that selects a row fits an operation. -/
theorem wordsThatDecodeAreTheTableRows : Obligations.WordsThatDecodeAreTheTableRows := by
  intro w
  constructor
  · rintro ⟨i, hi⟩
    have hfits := fits_of_decode hi
    exact ⟨⟨i.row, i.row_mem, hfits.row_selects⟩, hfits.subEventRowsLegal⟩
  · rintro ⟨⟨row, hrow, hsel⟩, hlegal⟩
    rw [opcodeRows_eq_map_row] at hrow
    obtain ⟨i, _, rfl⟩ := List.mem_map.mp hrow
    obtain ⟨j, hj⟩ := exists_fits_of_row_selects i hsel hlegal
    exact ⟨j, decode_of_fits hj⟩

/-- A word that decodes selects a row on its operation's port and on no other. -/
theorem selectsRowOn_iff {w : Word} {i : Instr} {p : Port} (h : decode w = .ok i) : SelectsRowOn p w ↔ i.port = p := by
  have hsel := (fits_of_decode h).row_selects
  constructor
  · rintro ⟨row, hrow, hrowsel, rfl⟩
    rw [row_eq_of_selects hrow i.row_mem hrowsel hsel, i.row_port]
  · intro hp
    exact ⟨i.row, i.row_mem, hsel, i.row_port.trans hp⟩

end Sys2Proof
end

section
/-! ### Words that wait, and the order of the checks (rules R127, R129 and R299) -/

namespace Sys2Proof.Machine

/-! The input taken while the Host is asleep. -/

/-- Inputs that are held keep their place. -/
theorem nextInput_append {asleep : Bool} {before after : List Input} {i : Input}
    (hbefore : ∀ j ∈ before, Input.held asleep j = true) (hi : i.held asleep = false) :
    nextInput asleep (before ++ i :: after) = some (i, before ++ after) := by
  induction before with
  | nil => exact nextInput_cons hi
  | cons j tail ih =>
    obtain ⟨hj, htail⟩ := List.forall_mem_cons.mp hbefore
    simp [nextInput, hj, ih htail]

/-- A sleeping Host's words are held, and nothing else. -/
theorem Input.held_asleep_iff {i : Input} : i.held true = true ↔ ∃ w, i = .word .host w := by
  cases i with
  | word p w => cases p <;> simp [Input.held]
  | deliver b => simp [Input.held]
  | reset => simp [Input.held]

theorem step_of_nextInput_none {s : State} (h : nextInput s.isAsleep s.inputs = none) : step s = .next s := by
  simp [step, advance, h]

theorem step_of_nextInput_some {s : State} {i : Input} {rest : List Input}
    (h : nextInput s.isAsleep s.inputs = some (i, rest)) : step s = takeInput i { s with inputs := rest } := by
  simp [step, advance, h]

/-- Settles O8: the Host's words are held, and the first input behind them is not. -/
theorem hostWordsWaitWhileTheHostIsAsleep : Obligations.HostWordsWaitWhileTheHostIsAsleep := by
  intro s l waiting hpwr hwaiting
  have hasleep : s.isAsleep = true := by simp [State.isAsleep, hpwr]
  have hheld (j : Input) (hj : j ∈ waiting) : j.held true = true := Input.held_asleep_iff.mpr (hwaiting j hj)
  refine ⟨fun hin => step_of_nextInput_none ?_, fun i after hi hin => step_of_nextInput_some ?_⟩
  · rw [hasleep, hin]
    exact nextInput_none.mpr hheld
  · have hfree : i.held true = false :=
      Bool.eq_false_iff.mpr fun h => not_exists.mpr hi (Input.held_asleep_iff.mp h)
    rw [hasleep, hin]
    exact nextInput_append hheld hfree

/-! What executing an operation answers. -/

/-- `t` is `s` after an operation answered on port `p` as one that was executed: with no fatal error, or with one (check 5
of rule R127). -/
def State.ExecutedOn (p : Port) (s t : State) : Prop :=
  (∃ d, t.resp = s.resp ++ [(p, ⟨true, d⟩)] ∧ t.HALT = s.HALT) ∨
  (t.resp = s.resp ++ [(p, ⟨false, 5⟩)] ∧ t.HALT = true)

/-- `u` has the answers and the halt of `s`. -/
def State.Unanswered (s u : State) : Prop := u.resp = s.resp ∧ u.HALT = s.HALT

theorem accept_executedOn {p : Port} {d : Word} {s u t : State} (hu : s.Unanswered u) (h : accept p d u = .next t) :
    s.ExecutedOn p t := by
  obtain ⟨hresp, hhalt⟩ := hu
  rw [accept_next h]
  exact .inl ⟨d, by simp [hresp], hhalt⟩

theorem conclude_executedOn {p : Port} {s s0 t : State} {r : Handled} (hs0 : s0.resp = s.resp)
    (hdone : ∀ u, r = .done u → s.Unanswered u) (h : conclude p s0 r = .next t) : s.ExecutedOn p t := by
  rcases conclude_next h with ⟨u, hu, rfl⟩ | ⟨e, _, rfl⟩
  · obtain ⟨hresp, hhalt⟩ := hdone u hu
    exact .inl ⟨0, by simp [hresp], hhalt⟩
  · exact .inr ⟨congrArg (· ++ [(p, (⟨false, 5⟩ : Response))]) hs0, rfl⟩

theorem Transition.unanswered {b : BitVec 2} {s u : State} {ev : SubEvent} (h : Transition b s ev u) :
    s.Unanswered u := by
  rcases h.shared with ⟨_, _, _, rfl⟩ | ⟨_, _, _, rfl⟩ <;> exact ⟨rfl, rfl⟩

theorem startTransaction_unanswered {b : BitVec 2} {mode : Mode} {paddr : BitVec 7} {raddr : Byte} {count : BitVec 3}
    {evid : BitVec 5} {s u : State} (h : startTransaction b mode paddr raddr count evid s = .done u) :
    s.Unanswered u := by
  rcases startTransaction_cases b mode paddr raddr count evid s with ⟨_, hd⟩ | ⟨_, hd⟩
  · cases hd.symm.trans h
    exact ⟨rfl, rfl⟩
  · cases hd.symm.trans h

theorem block_unanswered {l : BitVec 3} {s u : State} (h : block l s = .done u) : s.Unanswered u := by
  rcases block_cases l s with ⟨_, hd⟩ | ⟨_, hd⟩
  · cases hd.symm.trans h
    exact ⟨rfl, rfl⟩
  · cases hd.symm.trans h

theorem unblock_unanswered {l : BitVec 3} {s u : State} (h : unblock l s = .done u) : s.Unanswered u := by
  rcases unblock_cases l s with ⟨_, hd⟩ | ⟨_, hd⟩
  · cases hd.symm.trans h
  · cases hd.symm.trans h
    exact ⟨rfl, rfl⟩

/-! The checks, one after another. -/

/-- Check 4 of rule R127, for the operations that have it. -/
def gated (i : Instr) (s : State) (run : Host.Outcome State Fault Refusal) : Host.Outcome State Fault Refusal :=
  match gatedBy i with
  | some b => unlessBusy b s run
  | none => run

/-- Every operation but `FSTAT` is its checks in the order of rule R127, then its own pseudocode, which answers. -/
theorem exec_eq_checked {i : Instr} (hi : i ≠ .fstat) (s : State) :
    ∃ run, exec i s = checked i.port (i.wellFormed s.params) s (gated i s run) ∧
      ∀ t, run = .next t → s.ExecutedOn i.port t := by
  cases i with
  | fstat => exact absurd rfl hi
  | xstart => exact ⟨_, rfl, fun t => conclude_executedOn rfl fun u => startTransaction_unanswered⟩
  | emblk => exact ⟨_, rfl, fun t => conclude_executedOn rfl fun u => block_unanswered⟩
  | emunblk => exact ⟨_, rfl, fun t => conclude_executedOn rfl fun u => unblock_unanswered⟩
  | subev => exact ⟨_, rfl, fun t => conclude_executedOn rfl fun u h => (handle_done h).unanswered⟩
  | bufrd b =>
    refine ⟨if (s.inst b).available then accept .host (s.inst b).buf s
      else accept .host (Config.freeWord s.drawn) s.draw, rfl, fun t h => ?_⟩
    split at h
    · exact accept_executedOn ⟨rfl, rfl⟩ h
    · exact accept_executedOn (u := s.draw) ⟨rfl, rfl⟩ h
  | _ => exact ⟨_, rfl, fun t => accept_executedOn ⟨rfl, rfl⟩⟩

/-- Check 1: a halted block refuses every operation but `FSTAT`. -/
theorem exec_of_halted {i : Instr} {s : State} (hi : i ≠ .fstat) (hhalt : s.HALT = true) :
    exec i s = .next (s.refuse i.port .halted) := by
  obtain ⟨run, hexec, _⟩ := exec_eq_checked hi s
  rw [hexec, checked_halted _ hhalt]

/-- Check 3: the ranges of rule R103. -/
theorem exec_of_out_of_range {i : Instr} {s : State} (hrun : s.HALT = false) (hwf : i.wellFormed s.params = false) :
    exec i s = .next (s.refuse i.port .range) := by
  have hi : i ≠ .fstat := by
    rintro rfl
    cases hwf
  obtain ⟨run, hexec, _⟩ := exec_eq_checked hi s
  rw [hexec, checked_range _ hrun hwf]

/-- The operations with a gate are HOST's. -/
theorem port_of_gatedBy {i : Instr} {b : BitVec 2} (h : gatedBy i = some b) : i.port = .host := by
  cases i with
  | xstart | bufwr => rfl
  | _ => cases h

/-- Check 4: the operations that need the gate open. -/
theorem exec_of_busy {i : Instr} {s : State} {b : BitVec 2} (hrun : s.HALT = false)
    (hwf : i.wellFormed s.params = true) (hgate : gatedBy i = some b) (hbusy : (s.inst b).available = false) :
    exec i s = .next (s.refuse i.port .busy) := by
  have hi : i ≠ .fstat := by
    rintro rfl
    cases hgate
  obtain ⟨run, hexec, _⟩ := exec_eq_checked hi s
  rw [hexec, checked_run _ hrun hwf, port_of_gatedBy hgate]
  simp [gated, hgate, unlessBusy, hbusy]

theorem gated_of_open {i : Instr} {s : State} (h : ∀ b, gatedBy i = some b → (s.inst b).available = true)
    (run : Host.Outcome State Fault Refusal) : gated i s run = run := by
  unfold gated
  split
  · next b hb => simp [unlessBusy, h b hb]
  · rfl

/-- Check 5: past the other checks an operation is executed. -/
theorem exec_executedOn {i : Instr} {s t : State} (hrun : s.HALT = true → i = .fstat)
    (hwf : i.wellFormed s.params = true) (hopen : ∀ b, gatedBy i = some b → (s.inst b).available = true)
    (h : exec i s = .next t) : s.ExecutedOn i.port t := by
  by_cases hi : i = .fstat
  · subst hi
    exact accept_executedOn ⟨rfl, rfl⟩ h
  · obtain ⟨run, hexec, hanswers⟩ := exec_eq_checked hi s
    have hrunning : s.HALT = false := Bool.eq_false_iff.mpr fun hhalt => hi (hrun hhalt)
    rw [hexec, checked_run _ hrunning hwf, gated_of_open hopen] at h
    exact hanswers t h

/-- `FSTAT` has one word. -/
theorem decode_eq_fstat_iff {w : Word} : decode w = .ok .fstat ↔ w = 0xE0000000 := by
  constructor
  · intro h
    exact (encode_eq_iff.mpr (fits_of_decode h)).symm
  · rintro rfl
    exact decode_of_encode_eq rfl

/-- Check 1, for any word. -/
theorem takeWord_of_halted {p : Port} {w : Word} {s : State} (hhalt : s.HALT = true)
    (hw : ¬ (p = .host ∧ w = 0xE0000000)) : takeWord p w s = .next (s.refuse p .halted) := by
  rcases takeWord_cases p w s with ⟨htake, _⟩ | ⟨i, hdec, rfl, htake⟩
  · rw [htake, if_pos hhalt]
  · rw [htake]
    refine exec_of_halted (fun hi => hw ?_) hhalt
    subst hi
    exact ⟨rfl, decode_eq_fstat_iff.mp hdec⟩

/-- Check 2, for any word. -/
theorem takeWord_of_malformed {p : Port} {w : Word} {s : State} (hrun : s.HALT = false)
    (hw : (∀ i, decode w ≠ .ok i) ∨ ¬ SelectsRowOn p w) : takeWord p w s = .next (s.refuse p .malformed) := by
  rcases takeWord_cases p w s with ⟨htake, _⟩ | ⟨i, hdec, hport, _⟩
  · rw [htake, hrun]
    rfl
  · rcases hw with hnone | hrow
    · exact absurd hdec (hnone i)
    · exact absurd ((selectsRowOn_iff hdec).mpr hport) hrow

/-- Settles O9: the checks of the word (`takeWord_of_halted`, `takeWord_of_malformed`), then those of its operation on the
port of its row. -/
theorem wordsAreCheckedInOrder : Obligations.WordsAreCheckedInOrder := by
  intro s p w rest hin hawake
  rw [step_of_inputs_word hin hawake]
  refine ⟨fun hhalt hw => takeWord_of_halted hhalt hw, fun hrun hw => takeWord_of_malformed hrun hw,
    fun i hrun hdec hrow hwf => ?_, fun i b hrun hdec hrow hwf hgate hbusy => ?_,
    fun i t hrun hdec hrow hwf hopen h => ?_⟩
  all_goals
    obtain rfl := (selectsRowOn_iff hdec).mp hrow
    have htake := takeWord_of_decode hdec rfl { s with inputs := rest }
  · exact htake.trans (exec_of_out_of_range hrun hwf)
  · exact htake.trans (exec_of_busy hrun hwf hgate hbusy)
  · rw [htake] at h
    refine exec_executedOn (s := { s with inputs := rest }) (fun hhalt => ?_) hwf hopen h
    obtain ⟨_, rfl⟩ := hrun hhalt
    exact Except.ok.inj (hdec.symm.trans (decode_eq_fstat_iff.mpr rfl))

end Sys2Proof.Machine
end

section
/-! ### The Energy-Mode Arbiter (40_energy_arbiter.md) -/

namespace Sys2Proof.Machine

/-! The deepest level allowed (rule R144). -/

/-- `cda()` holds a vote, or no level does and it is the deepest one. -/
theorem cda_cases {s : State} (hv : s.params.Valid) :
    0 < s.vote (cda s) ∨
    (∀ l : BitVec 3, l.toNat < s.params.NLEVELS → s.vote l = 0) ∧ (cda s).toNat = s.params.NLEVELS - 1 := by
  obtain ⟨_, _, hlevels, _, _⟩ := hv
  unfold cda
  split
  · next l hl =>
    have hheld := List.find?_some hl
    exact .inl (of_decide_eq_true hheld)
  · next hnone =>
    refine .inr ⟨fun l hl => ?_, ?_⟩
    · have hfree := List.find?_eq_none.mp hnone l.toNat (List.mem_range.mpr hl)
      simpa [BitVec.pos_iff_ne_zero] using hfree
    · exact Nat.mod_eq_of_lt (by omega)

/-- `cda()` looks at the counters and at how many levels there are. -/
theorem cda_congr {s t : State} (hvotes : ∀ l, t.vote l = s.vote l) (hparams : t.params = s.params) :
    cda t = cda s := by
  simp only [cda, hvotes, hparams]

/-- Settles O27: `cda()` holds a vote if any level does (`cda_cases`), and it is at most every level that holds one. -/
theorem cdaIsTheLeastLevelHeld : Obligations.CdaIsTheLeastLevelHeld := by
  intro s hv
  have hlevel := cda_lt hv
  rcases cda_cases hv with hheld | ⟨hfree, hdeepest⟩
  · refine ⟨fun _ => ⟨hlevel, hheld, fun m hm => ?_⟩, fun hfree => ?_⟩
    · by_contra hvote
      have hle := cda_le_of_vote (Nat.lt_trans hm hlevel) hvote
      exact absurd hm (BitVec.not_lt.mpr hle)
    · exact absurd (hfree _ hlevel) (BitVec.ne_of_lt hheld).symm
  · refine ⟨fun ⟨l, hl, hvote⟩ => ?_, fun _ => hdeepest⟩
    exact absurd (hfree l hl) (BitVec.ne_of_lt hvote).symm

/-! The calls once their checks have passed (rules R140 and R127). -/

theorem execEmblk_passed {s : State} {l : BitVec 3} (hrun : s.HALT = false) (hl : l.toNat < s.params.NLEVELS) :
    exec (.emblk l) s = conclude .host s (block l s) := checked_run _ hrun (decide_eq_true hl)

theorem execEmunblk_passed {s : State} {l : BitVec 3} (hrun : s.HALT = false) (hl : l.toNat < s.params.NLEVELS) :
    exec (.emunblk l) s = conclude .host s (unblock l s) := checked_run _ hrun (decide_eq_true hl)

section
variable {s : State} {l : BitVec 3} (hrun : s.HALT = false) (hl : l.toNat < s.params.NLEVELS)
include hrun hl

/-- `EMBLK` takes a vote, or it is the overflow. -/
theorem execEmblk_cases :
    (s.vote l < s.params.VOTE_MAX ∧
      exec (.emblk l) s = .next ((s.setVote l (s.vote l + 1)).respond .host true 0)) ∨
    (s.params.VOTE_MAX ≤ s.vote l ∧
      exec (.emblk l) s = .next ((s.raiseFatal (.voteOverflow l)).refuse .host .fatal)) := by
  rw [execEmblk_passed hrun hl]
  rcases block_cases l s with ⟨hlt, hb⟩ | ⟨hge, hb⟩ <;> rw [hb]
  · exact .inl ⟨hlt, rfl⟩
  · exact .inr ⟨hge, rfl⟩

/-- `EMUNBLK` releases a vote, or it is the underflow. -/
theorem execEmunblk_cases :
    (s.vote l ≠ 0 ∧ exec (.emunblk l) s = .next ((s.setVote l (s.vote l - 1)).respond .host true 0)) ∨
    (s.vote l = 0 ∧ exec (.emunblk l) s = .next ((s.raiseFatal (.voteUnderflow l)).refuse .host .fatal)) := by
  rw [execEmunblk_passed hrun hl]
  rcases unblock_cases l s with ⟨hzero, hu⟩ | ⟨hpos, hu⟩ <;> rw [hu]
  · exact .inr ⟨hzero, rfl⟩
  · exact .inl ⟨hpos, rfl⟩

end

/-- `FINFO` of an overflow is the level (rule R271). -/
@[simp] theorem FatalError.voteOverflow_info (l : BitVec 3) : (FatalError.voteOverflow l).info = l.setWidth 8 :=
  (BitVec.setWidth_eq_append (by decide)).symm

/-- `FINFO` of an underflow is the level (rule R271). -/
@[simp] theorem FatalError.voteUnderflow_info (l : BitVec 3) : (FatalError.voteUnderflow l).info = l.setWidth 8 :=
  (BitVec.setWidth_eq_append (by decide)).symm

/-- A fatal error, answered: the fatal status, its record and the response, and nothing else (rule R272). -/
theorem State.raiseFatal_refuse (s : State) (e : FatalError) (p : Port) :
    (s.raiseFatal e).refuse p .fatal =
      { s with HALT := true, FCODE := e.code, FINFO := e.info, haltOut := s.haltOut ++ [⟨true, e.code, e.info⟩],
               resp := s.resp ++ [(p, ⟨false, 5⟩)] } := rfl

/-- Settles O23: below the bound the call is not the overflow, and the counter does not wrap. -/
theorem emblkAddsOneVote : Obligations.EmblkAddsOneVote := by
  intro s l hrun hl hlt
  rcases execEmblk_cases hrun hl with ⟨_, hexec⟩ | ⟨hge, _⟩
  · refine ⟨_, hexec, rfl, ?_, fun m hm => ?_⟩
    · simpa using vote_add_one_toNat hlt
    · simp [hm]
  · exact absurd hlt (BitVec.not_lt.mpr hge)

/-- Settles O24: at the bound the call is the overflow. -/
theorem emblkAtTheBoundIsFatal : Obligations.EmblkAtTheBoundIsFatal := by
  intro s l hrun hl hbound
  rcases execEmblk_cases hrun hl with ⟨hlt, _⟩ | ⟨_, hexec⟩
  · exact absurd hbound (BitVec.ne_of_lt hlt)
  · rw [hexec, State.raiseFatal_refuse, FatalError.voteOverflow_info]
    rfl

/-- Settles O25: above zero the call is not the underflow, and the counter does not wrap. -/
theorem emunblkTakesOneVote : Obligations.EmunblkTakesOneVote := by
  intro s l hrun hl hpos
  rcases execEmunblk_cases hrun hl with ⟨_, hexec⟩ | ⟨hzero, _⟩
  · refine ⟨_, hexec, rfl, ?_, fun m hm => ?_⟩
    · simpa using vote_sub_one_toNat hpos
    · simp [hm]
  · exact absurd hzero hpos

/-- Settles O26: at zero the call is the underflow. -/
theorem emunblkAtZeroIsFatal : Obligations.EmunblkAtZeroIsFatal := by
  intro s l hrun hl hzero
  rcases execEmunblk_cases hrun hl with ⟨hpos, _⟩ | ⟨_, hexec⟩
  · exact absurd hzero hpos
  · rw [hexec, State.raiseFatal_refuse, FatalError.voteUnderflow_info]
    rfl

/-- Settles O28: a running block has no other check for `EMCDA`. -/
theorem emcdaAnswersTheDeepestAllowed : Obligations.EmcdaAnswersTheDeepestAllowed :=
  fun _ hrun => checked_run _ hrun rfl

/-- Settles O29: a running block has no other check for `EMSLEEP`. -/
theorem emsleepEntersTheDeepestAllowed : Obligations.EmsleepEntersTheDeepestAllowed :=
  fun _ hrun => checked_run _ hrun rfl

/-! Calls one after another (rule R147). -/

theorem execAll_cons {i : Instr} {ops : List Instr} {s t : State} :
    execAll (i :: ops) s = .next t ↔ ∃ u, exec i s = .next u ∧ execAll ops u = .next t := by
  cases hi : exec i s <;> simp [execAll, hi]

/-- No sequence of operations leaves the halted state. -/
theorem execAll_running {ops : List Instr} {s t : State} (h : execAll ops s = .next t) (ht : t.HALT = false) :
    s.HALT = false := by
  induction ops generalizing s with
  | nil =>
    cases h
    exact ht
  | cons i ops ih =>
    obtain ⟨u, hfirst, hrest⟩ := execAll_cons.mp h
    exact exec_running hfirst (ih hrest)

/-- No sequence of operations changes the parameters (rule R323). -/
theorem execAll_params {ops : List Instr} {s t : State} (h : execAll ops s = .next t) : t.params = s.params := by
  induction ops generalizing s with
  | nil =>
    cases h
    rfl
  | cons i ops ih =>
    obtain ⟨u, hfirst, hrest⟩ := execAll_cons.mp h
    exact (ih hrest).trans (exec_params hfirst)

/-- From `s` to `t` each counter went up by the `EMBLK` and down by the `EMUNBLK` that `ops` has for it; what has no
level (rule R6) stayed. -/
def State.VotesBy (ops : List Instr) (s t : State) : Prop :=
  ∀ m : BitVec 3,
    (m.toNat < s.params.NLEVELS →
      (t.vote m).toNat + ops.count (.emunblk m) = (s.vote m).toNat + ops.count (.emblk m)) ∧
    (s.params.NLEVELS ≤ m.toNat → t.vote m = s.vote m)

theorem State.VotesBy.cons {i : Instr} {ops : List Instr} {s u t : State} (hparams : u.params = s.params)
    (hfirst : s.VotesBy [i] u) (hrest : u.VotesBy ops t) : s.VotesBy (i :: ops) t := by
  intro m
  obtain ⟨hfirstVote, hfirstAbsent⟩ := hfirst m
  obtain ⟨hrestVote, hrestAbsent⟩ := hrest m
  rw [hparams] at hrestVote hrestAbsent
  refine ⟨fun hm => ?_, fun hm => (hrestAbsent hm).trans (hfirstAbsent hm)⟩
  have hcons (j : Instr) : (i :: ops).count j = [i].count j + ops.count j := List.count_append (l₁ := [i])
  have := hfirstVote hm
  have := hrestVote hm
  simp only [hcons]
  omega

/-- A call for a level that does not exist is refused (rule R103). -/
theorem exec_votesBy_of_absent {i : Instr} {l : BitVec 3} {s t : State} (hi : i = .emblk l ∨ i = .emunblk l)
    (hrun : s.HALT = false) (hl : s.params.NLEVELS ≤ l.toNat) (h : exec i s = .next t) : s.VotesBy [i] t := by
  have hwf : i.wellFormed s.params = false := by
    rcases hi with rfl | rfl <;> exact decide_eq_false (Nat.not_lt.mpr hl)
  rw [exec_of_out_of_range hrun hwf] at h
  cases h
  refine fun m => ⟨fun hm => ?_, fun _ => rfl⟩
  have hne : l ≠ m := by
    rintro rfl
    omega
  rcases hi with rfl | rfl <;> simp [hne]

/-- A call moves the counters when it moves its own by what it takes and releases. -/
theorem State.VotesBy.of_setVote {i : Instr} {l : BitVec 3} {s : State} {v : BitVec 8}
    (hi : i = .emblk l ∨ i = .emunblk l) (hl : l.toNat < s.params.NLEVELS)
    (hv : v.toNat + [i].count (.emunblk l) = (s.vote l).toNat + [i].count (.emblk l)) :
    s.VotesBy [i] ((s.setVote l v).respond .host true 0) := by
  intro m
  by_cases hm : m = l
  · subst hm
    exact ⟨fun _ => by simpa using hv, fun habsent => absurd hl (Nat.not_lt.mpr habsent)⟩
  · rcases hi with rfl | rfl <;> simp [hm, Ne.symm hm]

/-- A call that is not fatal takes or releases its vote, or is refused. -/
theorem exec_votesBy {i : Instr} {l : BitVec 3} {s t : State} (hi : i = .emblk l ∨ i = .emunblk l)
    (h : exec i s = .next t) (ht : t.HALT = false) : s.VotesBy [i] t := by
  have hrun := exec_running h ht
  rcases Nat.lt_or_ge l.toNat s.params.NLEVELS with hl | hl
  · rcases hi with rfl | rfl
    · rcases execEmblk_cases hrun hl with ⟨hlt, hexec⟩ | ⟨_, hexec⟩ <;> cases hexec.symm.trans h
      · exact .of_setVote (.inl rfl) hl (by simpa using vote_add_one_toNat hlt)
      · cases ht
    · rcases execEmunblk_cases hrun hl with ⟨hpos, hexec⟩ | ⟨_, hexec⟩ <;> cases hexec.symm.trans h
      · exact .of_setVote (.inr rfl) hl (by simpa using vote_sub_one_toNat hpos)
      · cases ht
  · exact exec_votesBy_of_absent hi hrun hl h

/-- Calls none of which is fatal move the counters as their list says. -/
theorem execAll_votesBy {ops : List Instr} {s t : State} (hcalls : ∀ i ∈ ops, ∃ l, i = .emblk l ∨ i = .emunblk l)
    (h : execAll ops s = .next t) (ht : t.HALT = false) : s.VotesBy ops t := by
  induction ops generalizing s with
  | nil =>
    cases h
    exact fun m => ⟨fun _ => rfl, fun _ => rfl⟩
  | cons i ops ih =>
    obtain ⟨u, hfirst, hrest⟩ := execAll_cons.mp h
    have hu := execAll_running hrest ht
    refine .cons (exec_params hfirst) ?_ (ih (fun j hj => hcalls j (List.mem_cons_of_mem i hj)) hrest)
    obtain ⟨l, hi⟩ := hcalls i List.mem_cons_self
    exact exec_votesBy hi hfirst hu

/-- Balanced calls leave the counters as they were. -/
theorem State.VotesBy.eq_of_balanced {ops : List Instr} {s t : State} (h : s.VotesBy ops t)
    (hbalanced : ∀ l : BitVec 3, ops.count (.emblk l) = ops.count (.emunblk l)) (l : BitVec 3) :
    t.vote l = s.vote l := by
  obtain ⟨hvote, habsent⟩ := h l
  rcases Nat.lt_or_ge l.toNat s.params.NLEVELS with hl | hl
  · have := hvote hl
    have := hbalanced l
    exact BitVec.eq_of_toNat_eq (by omega)
  · exact habsent hl

/-- Settles O30: the counters move as the calls say (`execAll_votesBy`), and `cda()` looks at nothing that moved. -/
theorem balancedCallsRestoreTheVotes : Obligations.BalancedCallsRestoreTheVotes := by
  intro ops s t _ _ hcalls hbalanced h ht
  have hvotes := (execAll_votesBy hcalls h ht).eq_of_balanced hbalanced
  exact ⟨hvotes, cda_congr hvotes (execAll_params h)⟩

end Sys2Proof.Machine
end

section
/-! ### The sub-events of a transaction (41_bus_transaction.md sections 3 and 4) -/

namespace Sys2Proof.Machine

/-! Lanes and counts (rules R72, R73 and R179). -/

theorem State.memRead_eq (s : State) (b : BitVec 2) (k : Nat) : s.memRead b k = laneOf (s.inst b).buf k := rfl

/-- The decremented count is the lane of the byte. -/
theorem count_sub_one_toNat {r : BitVec 3} (h : 1 ≤ r.toNat) : (r - 1).toNat = r.toNat - 1 := by
  bv_omega

theorem count_sub_one_toNat_add_one {r : BitVec 3} (h : 1 ≤ r.toNat) : (r - 1).toNat + 1 = r.toNat := by
  rw [count_sub_one_toNat h, Nat.sub_add_cancel h]

/-- The last byte is the one at count 1. -/
theorem count_sub_one_eq_zero_iff {r : BitVec 3} : r - 1 = 0 ↔ r = 1 := sub_eq_zero

/-! The operations of the Host (rules R163 to R166). -/

theorem exec_xstart_started {s : State} {b : BitVec 2} {mode : Mode} {paddr : BitVec 7} {raddr : Byte}
    {count : BitVec 3} {evid : BitVec 5} (hrun : s.HALT = false)
    (hwf : (Instr.xstart b mode paddr raddr count evid).wellFormed s.params = true)
    (hidle : (s.inst b).available = true) (hlt : s.vote s.params.BUS_ACTIVE_LEVEL < s.params.VOTE_MAX) :
    exec (.xstart b mode paddr raddr count evid) s =
      .next ((s.started b mode paddr raddr count evid).respond .host true 0) := by
  rw [execXstart_passed hrun hwf hidle]
  rcases startTransaction_cases b mode paddr raddr count evid s with ⟨_, hd⟩ | ⟨hge, _⟩
  · rw [hd]
    rfl
  · exact absurd hlt (BitVec.not_lt.mpr hge)

theorem State.started_vote_same (s : State) (b : BitVec 2) (mode : Mode) (paddr : BitVec 7) (raddr : Byte)
    (count : BitVec 3) (evid : BitVec 5) :
    (s.started b mode paddr raddr count evid).vote s.params.BUS_ACTIVE_LEVEL =
      s.vote s.params.BUS_ACTIVE_LEVEL + 1 := by
  simp [State.started]

theorem State.started_out_same (s : State) (b : BitVec 2) (mode : Mode) (paddr : BitVec 7) (raddr : Byte)
    (count : BitVec 3) (evid : BitVec 5) :
    (s.started b mode paddr raddr count evid).out b =
      s.out b ++ [BusAction.start, BusAction.txdata (addrByte paddr 0)] := by
  simp [State.started]

/-- Settles O31: past its checks an `XSTART` below the vote bound is the beginning of a transaction. -/
theorem xstartBeginsATransaction : Obligations.XstartBeginsATransaction := by
  intro s b mode paddr raddr count evid hrun hb hlo hhi hevid hidle hlt
  have hwf : (Instr.xstart b mode paddr raddr count evid).wellFormed s.params = true := by
    simp [Instr.wellFormed, busInRange, countInRange, evidInRange, hb, hlo, hhi, hevid]
  refine ⟨_, exec_xstart_started hrun hwf hidle hlt, rfl, s.started_inst_same .., fun c hc => ?_, ?_, fun l hl => ?_,
    s.started_out_same .., fun c hc => ?_⟩
  · exact s.started_inst_other hc ..
  · rw [State.respond_vote, State.started_vote_same, vote_add_one_toNat hlt]
  · exact s.started_vote_other hl b mode paddr raddr count evid
  · exact s.started_out_other hc ..

/-- Settles O32: at the bound the vote of an `XSTART` is the overflow. -/
theorem xstartAtTheVoteBoundIsFatal : Obligations.XstartAtTheVoteBoundIsFatal := by
  intro s b mode paddr raddr count evid hrun hwf hidle hbound
  rw [execXstart_passed hrun hwf hidle]
  rcases startTransaction_cases b mode paddr raddr count evid s with ⟨hlt, _⟩ | ⟨_, hd⟩
  · exact absurd hbound (BitVec.ne_of_lt hlt)
  · rw [hd, conclude, State.raiseFatal_refuse, FatalError.voteOverflow_info]
    rfl

/-- The block's state codes are those of rule R20's table. -/
theorem BtsmState.code_eq_tableCode (st : BtsmState) : st.code = tableCode st := by
  cases st <;> rfl

/-- Settles O33: `XSTAT` answers the word put together from the four registers. -/
theorem xstatShowsTheInstance : Obligations.XstatShowsTheInstance := by
  intro s b hrun hb
  have cut := @extractLsb'_append_cases
  have bit := @BitVec.getElem_append
  refine ⟨xstatWord (s.inst b), execXstat_passed hrun (decide_eq_true hb), ?_, ?_, ?_, ?_, ?_⟩
  · simp [xstatWord, bit]
  · simp [xstatWord, cut, BtsmState.code_eq_tableCode]
  · simp [xstatWord, cut]
  · cases hm : (s.inst b).mode <;> simp [xstatWord, bit, hm, Mode.code]
  · simp [xstatWord, cut]

/-- Settles O34: an accepted `BUFWR` is a write of one lane. -/
theorem bufwrWritesOneLane : Obligations.BufwrWritesOneLane := by
  intro s b lane byte hrun hb hlane hidle
  have hwf : (Instr.bufwr b lane byte).wellFormed s.params = true := by
    simp [Instr.wellFormed, busInRange, laneInRange, hb, hlane]
  have hwritten (k : Nat) (hk : k < 4) :
      (s.memWrite b lane.toNat byte).memRead b k = if lane.toNat = k then byte else s.memRead b k := by
    rw [State.memRead_eq, State.memWrite_inst_same]
    exact laneOf_withLane _ _ _ _ hk
  refine ⟨_, execBufwr_passed hrun hwf hidle, rfl, ?_, fun c hc => s.memWrite_inst_other hc .., ?_, fun k hk hne => ?_⟩
  · simp
  · exact (hwritten _ lane.isLt).trans (if_pos rfl)
  · exact (hwritten k hk).trans (if_neg (Ne.symm hne))

/-- Settles O35: an open gate shows the buffer. -/
theorem bufrdAnswersTheBuffer : Obligations.BufrdAnswersTheBuffer := by
  intro s b hrun hb hidle
  refine ⟨(s.inst b).buf, ?_, fun k _ => rfl⟩
  rw [execBufrd_passed hrun (decide_eq_true hb), if_pos hidle]
  rfl

/-- Settles O36: a closed gate shows a free value. -/
theorem bufrdOfABusyInstanceAnswersSomeWord : Obligations.BufrdOfABusyInstanceAnswersSomeWord := by
  intro s b hrun hb hbusy
  refine ⟨Config.freeWord s.drawn, ?_⟩
  rw [execBufrd_passed hrun (decide_eq_true hb), if_neg (Bool.eq_false_iff.mp hbusy)]
  rfl

/-! How a `SUBEV` ends (rules R167 and R272). -/

section
variable {s : State} {b : BitVec 2} {ev : SubEvent} (hrun : s.HALT = false) (hb : b.toNat < s.params.NBUS)
include hrun hb

theorem exec_subev_done {u : State} (h : handle b ev s.wakeUp = .done u) :
    exec (.subev b ev) s = .next (u.respond .sev true 0) := by
  rw [execSubev_passed hrun (decide_eq_true hb), h]
  rfl

theorem exec_subev_fatal {e : FatalError} (h : handle b ev s.wakeUp = .fatal e) :
    exec (.subev b ev) s = .next ((s.wakeUp.raiseFatal e).refuse .sev .fatal) := by
  rw [execSubev_passed hrun (decide_eq_true hb), h]
  rfl

end

/-- A `SUBEV` that wakes the Host, is answered, and writes its BusInstance alone: the registers are now `x`, and
`actions` are emitted. -/
def SubevWrites (b : BitVec 2) (ev : SubEvent) (s : State) (x : BusInstance) (actions : List BusAction) : Prop :=
  ∃ t, exec (.subev b ev) s = .next t ∧ WritesAlone b (s.wakeUp.respond .sev true 0) t x actions

theorem SubevWrites.of_handle {b : BitVec 2} {ev : SubEvent} {s u : State} {x : BusInstance}
    {actions : List BusAction} (hrun : s.HALT = false) (hb : b.toNat < s.params.NBUS)
    (hdone : handle b ev s.wakeUp = .done u) (h : WritesAlone b s.wakeUp u x actions) :
    SubevWrites b ev s x actions := by
  obtain ⟨hinst, hothers, hout, houts, hframe⟩ := h
  exact ⟨_, exec_subev_done hrun hb hdone, hinst, hothers, hout, houts, congrArg (State.respond · .sev true 0) hframe⟩

/-! Handlers the transitions below need (rules R168, R170 and R176). -/

theorem handle_restartAck {b : BitVec 2} {s : State} (hst : (s.inst b).state = .awaitReadRestartAck)
    (hadvance : s.params.READ_ADDR_ACK = .advance) : handle b .ack s = .done (s.goto b .receivingData) := by
  simp [handle, hst, ackReadRestart, hadvance]

theorem handle_stop {b : BitVec 2} {s : State} (hst : (s.inst b).state = .awaitStop) :
    handle b .stop s = finishTransaction b s := by
  simp [handle, hst]

theorem ackAddress_writesAlone (b : BitVec 2) (s : State) :
    WritesAlone b s (ackAddress b s)
      { s.inst b with state := if (s.inst b).mode = .read then .awaitRegisterAck else .writingData }
      [.txdata (s.inst b).raddr] := by
  obtain ⟨hinst, hrest⟩ := ackAddress_spec b s
  refine ⟨hinst.trans ?_, hrest⟩
  cases (s.inst b).mode <;> rfl

/-! The transitions, one after another (rules R168 to R174 and R176). -/

section
variable {s : State} {b : BitVec 2} (hrun : s.HALT = false) (hb : b.toNat < s.params.NBUS)
include hrun hb

/-- Rule R168. -/
theorem subevWrites_addressAck (hst : (s.inst b).state = .awaitAddressAck) :
    SubevWrites b .ack s
      { s.inst b with state := if (s.inst b).mode = .read then .awaitRegisterAck else .writingData }
      [.txdata (s.inst b).raddr] :=
  .of_handle hrun hb (by simp [handle, hst]) (ackAddress_writesAlone b s.wakeUp)

/-- Rule R169. -/
theorem subevWrites_registerAck (hst : (s.inst b).state = .awaitRegisterAck) :
    SubevWrites b .ack s { s.inst b with state := .awaitReadRestartAck }
      [.start, .txdata (addrByte (s.inst b).paddr 1)] :=
  .of_handle hrun hb (by simp [handle, hst]) (ackRegister_spec b s.wakeUp)

/-- Rule R170. -/
theorem subevWrites_restartAck (hst : (s.inst b).state = .awaitReadRestartAck)
    (hadvance : s.params.READ_ADDR_ACK = .advance) :
    SubevWrites b .ack s { s.inst b with state := .receivingData } [] :=
  .of_handle hrun hb (handle_restartAck (s := s.wakeUp) hst hadvance) (goto_writesAlone b s.wakeUp _)

section
variable (hlo : 1 ≤ (s.inst b).rem.toNat) (hhi : (s.inst b).rem.toNat ≤ s.params.NMAX)
include hlo hhi

/-- Rule R171. -/
theorem subevWrites_dataAck (hst : (s.inst b).state = .writingData) :
    SubevWrites b .ack s
      { s.inst b with
        rem := (s.inst b).rem - 1, state := if (s.inst b).rem = 1 then .awaitStop else .writingData }
      ([BusAction.txdata (s.memRead b ((s.inst b).rem.toNat - 1))] ++
        if (s.inst b).rem = 1 then [BusAction.stop] else []) := by
  have h := sendByte_writesAlone b s.wakeUp ((s.inst b).rem - 1)
  simp only [count_sub_one_eq_zero_iff, count_sub_one_toNat hlo, State.wakeUp_inst, hst] at h
  exact .of_handle hrun hb (by simp [handle, hst, withDataByte, hlo, hhi]) h

/-- Rules R172 to R174. -/
theorem subevWrites_byte (v : Byte)
    (hst : (s.inst b).state = .awaitReadRestartAck ∨ (s.inst b).state = .receivingData) :
    SubevWrites b (.rx v) s
      { s.inst b with
        rem := (s.inst b).rem - 1, buf := withLane (s.inst b).buf ((s.inst b).rem.toNat - 1) v,
        state := if (s.inst b).rem = 1 then .awaitStop else .receivingData }
      (if (s.inst b).rem = 1 then [.nack, .stop] else [.ack]) := by
  have h : WritesAlone b s.wakeUp _ _ _ := receiveByte_spec b v s.wakeUp ((s.inst b).rem - 1)
  simp only [count_sub_one_eq_zero_iff, count_sub_one_toNat hlo, State.wakeUp_inst] at h
  refine .of_handle hrun hb ?_ h
  rcases hst with hst | hst <;> simp [handle, hst, withDataByte, hlo, hhi]

end

/-- Rule R176. -/
theorem exec_stop (hst : (s.inst b).state = .awaitStop) (hvote : s.vote s.params.BUS_ACTIVE_LEVEL ≠ 0) :
    exec (.subev b .stop) s = .next ((s.wakeUp.finished b).respond .sev true 0) := by
  refine exec_subev_done hrun hb ((handle_stop (s := s.wakeUp) hst).trans ?_)
  rcases finishTransaction_cases b s.wakeUp with ⟨hzero, _⟩ | ⟨_, hf⟩
  · exact absurd hzero hvote
  · exact hf

end

/-- Settles O37: the transition is `subevWrites_addressAck`. -/
theorem addressAckSendsTheRegisterAddress : Obligations.AddressAckSendsTheRegisterAddress := by
  intro s b hrun hb hst
  obtain ⟨t, hexec, hinst, hothers, hout, houts, hframe⟩ := subevWrites_addressAck hrun hb hst
  exact ⟨t, hexec, hframe, hinst, hothers, hout, houts⟩

/-- Settles O38: the transition is `subevWrites_registerAck`. -/
theorem registerAckRestartsInReadDirection : Obligations.RegisterAckRestartsInReadDirection := by
  intro s b hrun hb hst
  obtain ⟨t, hexec, hinst, hothers, hout, houts, hframe⟩ := subevWrites_registerAck hrun hb hst
  exact ⟨t, hexec, hframe, hinst, hothers, hout, houts⟩

/-- Settles O39: the handler only goes to another state. -/
theorem restartAckAdvancesToReceiving : Obligations.RestartAckAdvancesToReceiving := by
  intro s b hrun hb hst hadvance
  exact ⟨_, exec_subev_done hrun hb (handle_restartAck (s := s.wakeUp) hst hadvance), rfl, s.wakeUp.goto_inst_same b _,
    fun c hc => s.wakeUp.goto_inst_other hc _⟩

/-- Settles O40: the transition is `subevWrites_dataAck`, and a count of at least one does not wrap. -/
theorem dataAckSendsTheNextByte : Obligations.DataAckSendsTheNextByte := by
  intro s b hrun hb hst hlo hhi
  obtain ⟨t, hexec, hinst, hothers, hout, houts, hframe⟩ := subevWrites_dataAck hrun hb hlo hhi hst
  have hcount : (t.inst b).rem.toNat + 1 = (s.inst b).rem.toNat := by
    rw [hinst]
    exact count_sub_one_toNat_add_one hlo
  refine ⟨t, hexec, hframe, hcount, by rw [hinst], hothers, ?_, houts⟩
  rw [hout, List.append_assoc]
  rfl

/-- Settles O41: the byte is in its lane, and what is read in a lane after the write is `laneOf_withLane`. -/
theorem receivedByteIsStoredAndAnswered : Obligations.ReceivedByteIsStoredAndAnswered := by
  intro s b v hvalid hrun hb hst hlo hhi
  obtain ⟨_, _, _, _, hmax⟩ := hvalid
  obtain ⟨t, hexec, hinst, hothers, hout, houts, hframe⟩ := subevWrites_byte hrun hb hlo hhi v hst
  have hcount : (t.inst b).rem.toNat + 1 = (s.inst b).rem.toNat := by
    rw [hinst]
    exact count_sub_one_toNat_add_one hlo
  have hstored (k : Nat) (hk : k < 4) :
      t.memRead b k = if (s.inst b).rem.toNat - 1 = k then v else s.memRead b k := by
    rw [State.memRead_eq, hinst]
    exact laneOf_withLane _ _ _ _ hk
  refine ⟨t, hexec, hframe, hcount, by rw [hinst], ?_, fun k hk hne => ?_, hothers, hout, houts⟩
  · exact (hstored _ (by omega)).trans (if_pos rfl)
  · exact (hstored k hk).trans (if_neg (Ne.symm hne))

/-- Settles O42: above zero the release of the vote is not the underflow, and the counter does not wrap. -/
theorem stopFinishesTheTransaction : Obligations.StopFinishesTheTransaction := by
  intro s b hrun hb hst hvote
  refine ⟨_, exec_stop hrun hb hst hvote, rfl, s.wakeUp.finished_inst_same b,
    fun c hc => s.wakeUp.finished_inst_other hc, ?_, fun l hl => s.wakeUp.finished_vote_other hl b⟩
  simpa [State.finished] using vote_sub_one_toNat hvote

/-- Settles O43: at zero the release of the vote is the underflow. -/
theorem stopWithoutAVoteIsFatal : Obligations.StopWithoutAVoteIsFatal := by
  intro s b hrun hb hst hvote
  have hhandle : handle b .stop s.wakeUp = .fatal (.voteUnderflow s.params.BUS_ACTIVE_LEVEL) := by
    rcases finishTransaction_cases b s.wakeUp with ⟨_, hf⟩ | ⟨hpos, _⟩
    · exact (handle_stop (s := s.wakeUp) hst).trans hf
    · exact absurd hvote hpos
  rw [exec_subev_fatal hrun hb hhandle, State.raiseFatal_refuse, FatalError.voteUnderflow_info]
  rfl

/-- A cell of the transition table that is no transition is fatal (rules R161 and R175). -/
theorem handle_unexpected {b : BitVec 2} {ev : SubEvent} {s : State}
    (h : expects s.params.READ_ADDR_ACK (s.inst b).state ev.kind = false) :
    handle b ev s = .fatal (.unexpectedSubevent b (s.inst b).state ev.kind) := by
  rcases handle_cases b ev s with ⟨_, hd⟩ | ⟨hst, rfl, _⟩ | ⟨hst, rfl, _⟩ | ⟨hst, rfl, hr, _⟩ | ⟨hst, rfl, _⟩ |
    ⟨hst | hst, v, rfl, _⟩ | ⟨hst, rfl, _⟩
  · exact hd
  all_goals simp_all [expects, SubEvent.kind]

/-- Settles O44: `FINFO` is put together from the BusInstance, its state's code and the kind's. -/
theorem unexpectedSubEventsAreFatal : Obligations.UnexpectedSubEventsAreFatal := by
  intro s b ev hrun hb hcell
  have cut := @extractLsb'_append_cases
  have bit := @BitVec.getElem_append
  refine ⟨(FatalError.unexpectedSubevent b (s.inst b).state ev.kind).info,
    exec_subev_fatal hrun hb (handle_unexpected hcell), ?_, ?_, ?_, ?_⟩
  · simp [FatalError.info, bit]
  · simp [FatalError.info, cut]
  · simp [FatalError.info, cut, BtsmState.code_eq_tableCode]
  · cases ev <;> simp [FatalError.info, cut, SubEvent.kind, Kind.code, kindBit]

end Sys2Proof.Machine
end

section
/-! ### Whole transactions (41_bus_transaction.md R177 and R178) -/

namespace Sys2Proof.Machine

/-! Operations that run one BusInstance. -/

theorem execAll_append {ops ops' : List Instr} {s t : State} :
    execAll (ops ++ ops') s = .next t ↔ ∃ u, execAll ops s = .next u ∧ execAll ops' u = .next t := by
  induction ops generalizing s with
  | nil => simp [execAll]
  | cons i ops ih => cases hi : exec i s <;> simp [execAll, hi, ih]

theorem execAll_singleton (i : Instr) (s : State) : execAll [i] s = exec i s := by
  cases hi : exec i s <;> simp [execAll, hi]

theorem WritesAlone.trans {b : BitVec 2} {s t u : State} {x y : BusInstance} {xs ys : List BusAction}
    (h : WritesAlone b s t x xs) (h' : WritesAlone b t u y ys) : WritesAlone b s u y (xs ++ ys) := by
  obtain ⟨_, hothers, hout, houts, hframe⟩ := h
  obtain ⟨hinst', hothers', hout', houts', hframe'⟩ := h'
  refine ⟨hinst', fun c hc => (hothers' c hc).trans (hothers c hc), ?_, fun c hc => (houts' c hc).trans (houts c hc), ?_⟩
  · rw [hout', hout, List.append_assoc]
  · rw [hframe', hframe]

/-- `s` at another power state and with other answers. -/
def State.withPowerResp (s : State) (pwr : Power) (resp : List (Port × Response)) : State :=
  { s with PWR := pwr, resp := resp }

theorem WritesAlone.withPowerResp {b : BitVec 2} {s t : State} {x : BusInstance} {actions : List BusAction}
    (h : WritesAlone b s t x actions) (pwr : Power) (resp : List (Port × Response)) :
    WritesAlone b (s.withPowerResp pwr resp) (t.withPowerResp pwr resp) x actions := by
  obtain ⟨hinst, hothers, hout, houts, hframe⟩ := h
  exact ⟨hinst, hothers, hout, houts, congrArg (State.withPowerResp · pwr resp) hframe⟩

/-- From every running state with parameters `c` whose BusInstance `b` is `x`, the operations `ops` end with it at `y`
and `actions` emitted; besides they only wake the Host and are answered. -/
def Carries (c : Params) (b : BitVec 2) (ops : List Instr) (x y : BusInstance) (actions : List BusAction) : Prop :=
  ∀ s : State, s.HALT = false → s.params = c → s.inst b = x →
    ∃ t, execAll ops s = .next t ∧ WritesAlone b (s.withPowerResp t.PWR t.resp) t y actions

section
variable {c : Params} {b : BitVec 2} {x y z : BusInstance}

theorem Carries.nil : Carries c b [] x x [] :=
  fun s _ _ hx => ⟨s, rfl, hx, fun _ _ => rfl, (List.append_nil _).symm, fun _ _ => rfl, rfl⟩

theorem Carries.append {ops ops' : List Instr} {xs ys : List BusAction} (h : Carries c b ops x y xs)
    (h' : Carries c b ops' y z ys) : Carries c b (ops ++ ops') x z (xs ++ ys) := by
  intro s hrun hc hx
  obtain ⟨t, hops, ht⟩ := h s hrun hc hx
  have ⟨hy, _, _, _, hframe⟩ := ht
  obtain ⟨u, hops', hu⟩ := h' t (by rw [hframe]; exact hrun) (by rw [hframe]; exact hc) hy
  exact ⟨u, execAll_append.mpr ⟨t, hops, hops'⟩, (ht.withPowerResp u.PWR u.resp).trans hu⟩

theorem Carries.of_subev {ev : SubEvent} {actions : List BusAction}
    (h : ∀ s : State, s.HALT = false → s.params = c → s.inst b = x → SubevWrites b ev s y actions) :
    Carries c b [.subev b ev] x y actions := by
  intro s hrun hc hx
  obtain ⟨t, hexec, hwrites⟩ := h s hrun hc hx
  refine ⟨t, (execAll_singleton _ s).trans hexec, ?_⟩
  exact hwrites.withPowerResp t.PWR t.resp

/-! The phases of a transaction. -/

variable (hb : b.toNat < c.NBUS)
include hb

theorem carries_addressAck (hst : x.state = .awaitAddressAck) :
    Carries c b [.subev b .ack] x { x with state := if x.mode = .read then .awaitRegisterAck else .writingData }
      [.txdata x.raddr] := by
  refine .of_subev fun s hrun hc hx => ?_
  subst hc hx
  exact subevWrites_addressAck hrun hb hst

theorem carries_registerAck (hst : x.state = .awaitRegisterAck) :
    Carries c b [.subev b .ack] x { x with state := .awaitReadRestartAck }
      [.start, .txdata (addrByte x.paddr 1)] := by
  refine .of_subev fun s hrun hc hx => ?_
  subst hc hx
  exact subevWrites_registerAck hrun hb hst

/-- The third acknowledge of a read, if it comes. -/
theorem carries_thirdAck {third : Bool} (hst : x.state = .awaitReadRestartAck)
    (hadvance : third = true → c.READ_ADDR_ACK = .advance) :
    ∃ st, (st = .awaitReadRestartAck ∨ st = .receivingData) ∧
      Carries c b (if third then [.subev b .ack] else []) x { x with state := st } [] := by
  cases third with
  | false => exact ⟨.awaitReadRestartAck, .inl rfl, hst ▸ .nil⟩
  | true =>
    refine ⟨.receivingData, .inr rfl, .of_subev fun s hrun hc hx => ?_⟩
    subst hc hx
    exact subevWrites_restartAck hrun hb hst (hadvance rfl)

theorem carries_dataAck (hst : x.state = .writingData) (hlo : 1 ≤ x.rem.toNat) (hhi : x.rem.toNat ≤ c.NMAX) :
    Carries c b [.subev b .ack] x
      { x with rem := x.rem - 1, state := if x.rem = 1 then .awaitStop else .writingData }
      ([BusAction.txdata (laneOf x.buf (x.rem.toNat - 1))] ++ if x.rem = 1 then [BusAction.stop] else []) := by
  refine .of_subev fun s hrun hc hx => ?_
  subst hc hx
  exact subevWrites_dataAck hrun hb hlo hhi hst

theorem carries_byte (v : Byte) (hst : x.state = .awaitReadRestartAck ∨ x.state = .receivingData)
    (hlo : 1 ≤ x.rem.toNat) (hhi : x.rem.toNat ≤ c.NMAX) :
    Carries c b [.subev b (.rx v)] x
      { x with
        rem := x.rem - 1, buf := withLane x.buf (x.rem.toNat - 1) v,
        state := if x.rem = 1 then .awaitStop else .receivingData }
      (if x.rem = 1 then [.nack, .stop] else [.ack]) := by
  refine .of_subev fun s hrun hc hx => ?_
  subst hc hx
  exact subevWrites_byte hrun hb hlo hhi v hst

/-- All the bytes of a write: the lanes from the highest down, then the stop. -/
theorem carries_dataAcks (n : Nat) (hst : x.state = .writingData) (hrem : x.rem.toNat = n + 1)
    (hmax : n + 1 ≤ c.NMAX) :
    Carries c b (List.replicate (n + 1) (.subev b .ack)) x { x with rem := 0, state := .awaitStop }
      ((List.range (n + 1)).reverse.map (fun k => BusAction.txdata (laneOf x.buf k)) ++ [BusAction.stop]) := by
  induction n generalizing x with
  | zero =>
    have hlast : x.rem = 1 := BitVec.eq_of_toNat_eq hrem
    simpa [hlast] using carries_dataAck hb hst (by omega) (by omega)
  | succ n ih =>
    have hmore : x.rem ≠ 1 := fun h => by simp [h] at hrem
    have hfirst := carries_dataAck hb hst (by omega) (by omega)
    rw [if_neg hmore, if_neg hmore] at hfirst
    have hrest := ih (x := { x with rem := x.rem - 1, state := .writingData }) rfl
      (by rw [count_sub_one_toNat (by omega), hrem]; rfl) (by omega)
    simpa [hrem, List.range_succ, List.replicate_succ] using hfirst.append hrest

/-- A write up to its stop. -/
theorem carries_write (n : Nat) (hst : x.state = .awaitAddressAck) (hmode : x.mode = .write)
    (hrem : x.rem.toNat = n + 1) (hmax : n + 1 ≤ c.NMAX) :
    Carries c b (List.replicate (n + 2) (.subev b .ack)) x { x with rem := 0, state := .awaitStop }
      (BusAction.txdata x.raddr :: (List.range (n + 1)).reverse.map (fun k => BusAction.txdata (laneOf x.buf k)) ++
        [BusAction.stop]) := by
  have haddress := carries_addressAck hb hst
  rw [if_neg (by simp [hmode])] at haddress
  exact haddress.append (carries_dataAcks hb (x := { x with state := .writingData }) n rfl hrem hmax)

/-- A read up to its restart. -/
theorem carries_readAddress (hst : x.state = .awaitAddressAck) (hmode : x.mode = .read) :
    Carries c b [.subev b .ack, .subev b .ack] x { x with state := .awaitReadRestartAck }
      [.txdata x.raddr, .start, .txdata (addrByte x.paddr 1)] := by
  have haddress := carries_addressAck hb hst
  rw [if_pos hmode] at haddress
  exact haddress.append (carries_registerAck hb rfl)

end

/-- The buffer with `bytes` received into it, the last of them in lane 0 (rule R73). -/
def packed (buf : Word) : List Byte → Word
  | [] => buf
  | v :: vs => packed (withLane buf vs.length v) vs

/-- All the bytes of a read: packed, each acknowledged, the last with a negative-acknowledge and the stop. -/
theorem carries_bytes {c : Params} {b : BitVec 2} {x : BusInstance} (hb : b.toNat < c.NBUS) (v : Byte)
    (vs : List Byte) (hst : x.state = .awaitReadRestartAck ∨ x.state = .receivingData)
    (hrem : x.rem.toNat = vs.length + 1) (hmax : vs.length + 1 ≤ c.NMAX) :
    Carries c b ((v :: vs).map fun v => .subev b (.rx v)) x
      { x with rem := 0, buf := packed x.buf (v :: vs), state := .awaitStop }
      (List.replicate vs.length BusAction.ack ++ [BusAction.nack, BusAction.stop]) := by
  induction vs generalizing x v with
  | nil =>
    have hlast : x.rem = 1 := BitVec.eq_of_toNat_eq hrem
    simpa [hlast, packed] using carries_byte hb v hst (by omega) (by omega)
  | cons w vs ih =>
    have hlen : (w :: vs).length = vs.length + 1 := rfl
    have hmore : x.rem ≠ 1 := fun h => by simp [h] at hrem
    have hfirst := carries_byte hb v hst (by omega) (by omega)
    rw [if_neg hmore, if_neg hmore] at hfirst
    have hrest := ih (x := { x with
        rem := x.rem - 1, buf := withLane x.buf (x.rem.toNat - 1) v, state := .receivingData }) w (.inr rfl)
      (by rw [count_sub_one_toNat (by omega), hrem]; rfl) (by omega)
    simpa [hrem, packed, List.replicate_succ] using hfirst.append hrest

/-- The lanes above the bytes received stay. -/
theorem laneOf_packed_of_le {buf : Word} {bytes : List Byte} {k : Nat} (hlen : bytes.length ≤ k) (hk : k < 4) :
    laneOf (packed buf bytes) k = laneOf buf k := by
  induction bytes generalizing buf with
  | nil => rfl
  | cons v vs ih =>
    have hlt : vs.length < k := hlen
    rw [packed, ih hlt.le, laneOf_withLane _ _ _ _ hk, if_neg hlt.ne]

/-- Byte `k` received is in lane `length - 1 - k`. -/
theorem laneOf_packed {buf : Word} {bytes : List Byte} {k : Nat} {v : Byte} (hlen : bytes.length ≤ 4)
    (h : bytes[k]? = some v) : laneOf (packed buf bytes) (bytes.length - 1 - k) = v := by
  induction bytes generalizing buf k with
  | nil => cases h
  | cons w vs ih =>
    have hvs : vs.length < 4 := hlen
    cases k with
    | zero =>
      cases h
      exact (laneOf_packed_of_le le_rfl hvs).trans (by rw [laneOf_withLane _ _ _ _ hvs, if_pos rfl])
    | succ k =>
      have hlane : (w :: vs).length - 1 - (k + 1) = vs.length - 1 - k := by
        rw [List.length_cons]
        omega
      rw [hlane]
      exact ih hvs.le h

/-- A read up to its stop. -/
theorem carries_read {c : Params} {b : BitVec 2} {x : BusInstance} (hb : b.toNat < c.NBUS) {third : Bool} {v : Byte}
    {vs : List Byte} (hst : x.state = .awaitAddressAck) (hmode : x.mode = .read)
    (hadvance : third = true → c.READ_ADDR_ACK = .advance) (hrem : x.rem.toNat = vs.length + 1)
    (hmax : vs.length + 1 ≤ c.NMAX) :
    Carries c b
      ([Instr.subev b .ack, Instr.subev b .ack] ++ (if third then [Instr.subev b .ack] else []) ++
        (v :: vs).map fun v => Instr.subev b (.rx v))
      x { x with rem := 0, buf := packed x.buf (v :: vs), state := .awaitStop }
      ([BusAction.txdata x.raddr, BusAction.start, BusAction.txdata (addrByte x.paddr 1)] ++
        (List.replicate vs.length BusAction.ack ++ [BusAction.nack, BusAction.stop])) := by
  obtain ⟨st, hst', hthird⟩ := carries_thirdAck (x := { x with state := .awaitReadRestartAck }) hb rfl hadvance
  have hbytes := carries_bytes (x := { x with state := st }) hb v vs hst' hrem hmax
  have hall := ((carries_readAddress hb hst hmode).append hthird).append hbytes
  rwa [List.append_nil] at hall

/-! From the start to the stop (rules R163, R176 and R177). -/

/-- A BusInstance with a transaction begun. -/
def BusInstance.begun (x : BusInstance) (mode : Mode) (paddr : BitVec 7) (raddr : Byte) (count : BitVec 3)
    (evid : BitVec 5) : BusInstance :=
  { x with
    available := false, mode := mode, paddr := paddr, raddr := raddr, rem := count, evid := evid,
    state := .awaitAddressAck }

/-- A vote taken and released is as it was. -/
theorem State.vote_taken_released (s : State) (l m : BitVec 3) :
    ((s.setVote l (s.vote l + 1)).setVote l ((s.setVote l (s.vote l + 1)).vote l - 1)).vote m = s.vote m := by
  rw [State.setVote_vote_same, add_sub_cancel_right, State.setVote_vote, State.setVote_vote]
  split
  · next h => rw [h]
  · rfl

/-- What check 3 says of an `XSTART` (rule R103). -/
theorem xstart_inRange {c : Params} {b : BitVec 2} {mode : Mode} {paddr : BitVec 7} {raddr : Byte}
    {count : BitVec 3} {evid : BitVec 5} (hwf : (Instr.xstart b mode paddr raddr count evid).wellFormed c = true) :
    b.toNat < c.NBUS ∧ 1 ≤ count.toNat ∧ count.toNat ≤ c.NMAX := by
  simp only [Instr.wellFormed, busInRange, countInRange, Bool.and_eq_true, decide_eq_true_eq] at hwf
  exact hwf.1

section
variable {s u : State} {b : BitVec 2} {mode : Mode} {paddr : BitVec 7} {raddr : Byte} {count : BitVec 3}
  {evid : BitVec 5} {y : BusInstance} {actions : List BusAction}

/-- A transaction begun, carried to registers `y` and finished: what is left of it is its registers, its stream and its
event. -/
theorem WritesAlone.started_finished
    (h : WritesAlone b ((s.started b mode paddr raddr count evid).withPowerResp u.PWR u.resp) u y actions)
    (resp : List (Port × Response)) :
    WritesAlone b { s with PWR := .awake, EV := s.EV ||| eventMask y.evid, resp := resp }
      { u.wakeUp.finished b with resp := resp } { y with available := true, state := .idle }
      ([BusAction.start, BusAction.txdata (addrByte paddr 0)] ++ actions) := by
  obtain ⟨hy, hothers, hout, houts, hframe⟩ := h
  have hvotes : (u.wakeUp.finished b).VOTE = s.VOTE := State.vote_ext fun m => by
    rw [hframe]
    exact s.vote_taken_released s.params.BUS_ACTIVE_LEVEL m
  have hevents : (u.wakeUp.finished b).EV = s.EV ||| eventMask y.evid := by
    have hu : u.EV = s.EV := (congrArg State.EV hframe :)
    show u.EV ||| eventMask (u.inst b).evid = _
    rw [hu, hy]
  refine ⟨?_, fun c hc => ?_, ?_, fun c hc => ?_, ?_⟩
  · exact (u.wakeUp.finished_inst_same b).trans (by rw [State.wakeUp_inst, hy])
  · exact (u.wakeUp.finished_inst_other hc).trans
      ((hothers c hc).trans (s.started_inst_other hc mode paddr raddr count evid))
  · calc u.out b = (s.started b mode paddr raddr count evid).out b ++ actions := hout
      _ = s.out b ++ ([BusAction.start, BusAction.txdata (addrByte paddr 0)] ++ actions) := by
        rw [State.started_out_same, List.append_assoc]
  · exact (houts c hc).trans (s.started_out_other hc mode paddr raddr count evid)
  · calc { u.wakeUp.finished b with resp := resp }
        = { u with
            PWR := .awake, resp := resp, bus := (u.wakeUp.finished b).bus
            VOTE := (u.wakeUp.finished b).VOTE, EV := (u.wakeUp.finished b).EV } := rfl
      _ = { s with
            PWR := .awake, resp := resp, bus := (u.wakeUp.finished b).bus, busOut := u.busOut
            VOTE := (u.wakeUp.finished b).VOTE, EV := (u.wakeUp.finished b).EV } :=
          congrArg (fun r : State => { r with
            PWR := .awake, resp := resp, bus := (u.wakeUp.finished b).bus
            VOTE := (u.wakeUp.finished b).VOTE, EV := (u.wakeUp.finished b).EV }) hframe
      _ = _ := by rw [hvotes, hevents]; rfl

/-- A whole transaction, when its sub-events before the stop carry it to `AwaitStop`. -/
theorem exec_transaction {ops : List Instr} (hrun : s.HALT = false)
    (hwf : (Instr.xstart b mode paddr raddr count evid).wellFormed s.params = true)
    (hidle : (s.inst b).available = true) (hlt : s.vote s.params.BUS_ACTIVE_LEVEL < s.params.VOTE_MAX)
    (hops : Carries s.params b ops ((s.inst b).begun mode paddr raddr count evid) y actions)
    (hst : y.state = .awaitStop) :
    ∃ t, execAll (.xstart b mode paddr raddr count evid :: (ops ++ [Instr.subev b .stop])) s = .next t ∧
      WritesAlone b { s with PWR := .awake, EV := s.EV ||| eventMask y.evid, resp := t.resp } t
        { y with available := true, state := .idle }
        ([BusAction.start, BusAction.txdata (addrByte paddr 0)] ++ actions) := by
  obtain ⟨hb, _⟩ := xstart_inRange hwf
  have hfirst := exec_xstart_started hrun hwf hidle hlt
  obtain ⟨u, hexec, hu⟩ := hops ((s.started b mode paddr raddr count evid).respond .host true 0) hrun rfl
    (s.started_inst_same b mode paddr raddr count evid)
  have ⟨hy, _, _, _, hframe⟩ := hu
  have hvote : u.vote u.params.BUS_ACTIVE_LEVEL ≠ 0 := by
    rw [hframe]
    show (s.started b mode paddr raddr count evid).vote s.params.BUS_ACTIVE_LEVEL ≠ 0
    rw [State.started_vote_same]
    bv_omega
  have hlast := exec_stop (s := u) (b := b) (by rw [hframe]; exact hrun) (by rw [hframe]; exact hb) (by rw [hy, hst])
    hvote
  exact ⟨_, execAll_cons.mpr ⟨_, hfirst, execAll_append.mpr ⟨u, hexec, (execAll_singleton _ u).trans hlast⟩⟩,
    WritesAlone.started_finished hu _⟩

end

/-- Settles O45: the phases of a read, and what is in the lanes of `packed`. -/
theorem wholeReadPacksItsBytes : Obligations.WholeReadPacksItsBytes := by
  intro s b paddr raddr count evid third bytes hvalid hrun hwf hidle hlt hadvance hlen
  obtain ⟨_, _, _, _, hmax⟩ := hvalid
  obtain ⟨hb, hlo, hhi⟩ := xstart_inRange hwf
  obtain ⟨v, vs, rfl⟩ := List.exists_cons_of_length_pos (hlen ▸ hlo)
  have hops := carries_read (x := (s.inst b).begun .read paddr raddr count evid) (v := v) hb rfl rfl hadvance hlen.symm
    (hlen.trans_le hhi)
  obtain ⟨t, hexec, hinst, hothers, hout, houts, hframe⟩ := exec_transaction hrun hwf hidle hlt hops rfl
  have hlanes (k : Nat) : t.memRead b k = laneOf (packed (s.inst b).buf (v :: vs)) k := by
    rw [State.memRead_eq, hinst]
    rfl
  refine ⟨t, hexec, hframe, by rw [hinst]; rfl, fun k w hk => ?_, fun k hlow hk => ?_, hothers, ?_, houts⟩
  · rw [hlanes, ← hlen]
    exact laneOf_packed (by omega) hk
  · rw [hlanes]
    exact laneOf_packed_of_le (by omega) hk
  · rw [hout, ← hlen]
    show s.out b ++ _ = _
    simp [BusInstance.begun, addrByte]

/-- Settles O46: the phases of a write. -/
theorem wholeWriteSendsItsLanes : Obligations.WholeWriteSendsItsLanes := by
  intro s b paddr raddr count evid _ hrun hwf hidle hlt
  obtain ⟨hb, hlo, hhi⟩ := xstart_inRange hwf
  obtain ⟨n, hcount⟩ := Nat.exists_eq_add_of_le' hlo
  have hops := carries_write (x := (s.inst b).begun .write paddr raddr count evid) hb n rfl rfl hcount (by omega)
  obtain ⟨t, hexec, hinst, hothers, hout, houts, hframe⟩ := exec_transaction hrun hwf hidle hlt hops rfl
  rw [xferWr, hcount]
  refine ⟨t, hexec, hframe, by rw [hinst]; rfl, hothers, ?_, houts⟩
  rw [hout]
  show s.out b ++ _ = _
  simp [BusInstance.begun, addrByte, State.memRead_eq]

end Sys2Proof.Machine
end

section
/-! ### Transactions that can be finished, and transactions that are stuck (rules R178 and R362 (d)) -/

namespace Sys2Proof.Machine

/-! The way to the stop. -/

/-- At most `n` sub-events carry `x` to `AwaitStop`. -/
def CanReachStop (c : Params) (b : BitVec 2) (n : Nat) (x : BusInstance) : Prop :=
  ∃ (evs : List SubEvent) (buf : Word) (actions : List BusAction), evs.length ≤ n ∧
    Carries c b (evs.map (Instr.subev b)) x { x with rem := 0, buf := buf, state := .awaitStop } actions

section
variable {c : Params} {b : BitVec 2} {x : BusInstance}

theorem CanReachStop.of_carries {evs : List SubEvent} {st : BtsmState} {actions : List BusAction} {m n : Nat}
    (h : Carries c b (evs.map (Instr.subev b)) x { x with state := st } actions)
    (hrest : CanReachStop c b m { x with state := st }) (hmn : evs.length + m ≤ n) : CanReachStop c b n x := by
  obtain ⟨evs', buf, actions', hlen, h'⟩ := hrest
  refine ⟨evs ++ evs', buf, actions ++ actions', ?_, ?_⟩
  · rw [List.length_append]
    omega
  · rw [List.map_append]
    exact h.append h'

theorem CanReachStop.mono {m n : Nat} (h : CanReachStop c b m x) (hmn : m ≤ n) : CanReachStop c b n x := by
  obtain ⟨evs, buf, actions, hlen, hcarries⟩ := h
  exact ⟨evs, buf, actions, hlen.trans hmn, hcarries⟩

/-- In flight and not at the stop, a data byte is to come. -/
theorem BusInstance.Inv.rem_of_ne_awaitStop (hx : x.Inv c) (hbusy : x.available = false)
    (hst : x.state ≠ .awaitStop) : 1 ≤ x.rem.toNat ∧ x.rem.toNat ≤ c.NMAX := by
  have hidle : x.state ≠ .idle := fun h => absurd (hbusy.symm.trans (hx.gate.mpr h)) (by decide)
  refine hx.count ?_
  revert hst hidle
  cases x.state <;> simp [BtsmState.DataToCome]

variable (hb : b.toNat < c.NBUS)
include hb

theorem canReachStop_of_byteDue (hst : x.state = .awaitReadRestartAck ∨ x.state = .receivingData)
    (hlo : 1 ≤ x.rem.toNat) (hhi : x.rem.toNat ≤ c.NMAX) : CanReachStop c b c.NMAX x := by
  obtain ⟨n, hrem⟩ := Nat.exists_eq_add_of_le' hlo
  have hbytes := carries_bytes hb 0 (List.replicate n 0) hst (by simpa using hrem) (by simpa [← hrem] using hhi)
  exact ⟨List.replicate (n + 1) (.rx 0), _, _, by simpa [← hrem] using hhi, by
    simpa [List.replicate_succ] using hbytes⟩

theorem canReachStop_of_writing (hst : x.state = .writingData) (hlo : 1 ≤ x.rem.toNat) (hhi : x.rem.toNat ≤ c.NMAX) :
    CanReachStop c b c.NMAX x := by
  obtain ⟨n, hrem⟩ := Nat.exists_eq_add_of_le' hlo
  have hacks := carries_dataAcks hb n hst hrem (by omega)
  exact ⟨List.replicate (n + 1) .ack, x.buf, _, by simpa [← hrem] using hhi, by simpa using hacks⟩

/-- Every state of a transaction leads to the stop. -/
theorem canReachStop (hx : x.Inv c) (hbusy : x.available = false) : CanReachStop c b (c.NMAX + 2) x := by
  by_cases hstop : x.state = .awaitStop
  · have hhere : { x with rem := 0, buf := x.buf, state := .awaitStop } = x := by
      rw [← hstop, ← hx.countStop hstop]
    exact ⟨[], x.buf, [], Nat.zero_le _, hhere.symm ▸ .nil⟩
  obtain ⟨hlo, hhi⟩ := hx.rem_of_ne_awaitStop hbusy hstop
  cases hst : x.state with
  | idle => exact absurd (hbusy.symm.trans (hx.gate.mpr hst)) (by decide)
  | awaitAddressAck =>
    cases hmode : x.mode with
    | read =>
      exact .of_carries (evs := [.ack, .ack]) (carries_readAddress hb hst hmode)
        (canReachStop_of_byteDue hb (.inl rfl) hlo hhi) (by simp only [List.length_cons, List.length_nil]; omega)
    | write =>
      have haddress := carries_addressAck hb hst
      rw [if_neg (by simp [hmode])] at haddress
      exact .of_carries (evs := [.ack]) haddress (canReachStop_of_writing hb rfl hlo hhi)
        (by simp only [List.length_cons, List.length_nil]; omega)
  | awaitRegisterAck =>
    exact .of_carries (evs := [.ack]) (carries_registerAck hb hst) (canReachStop_of_byteDue hb (.inl rfl) hlo hhi)
      (by simp only [List.length_cons, List.length_nil]; omega)
  | awaitReadRestartAck => exact (canReachStop_of_byteDue hb (.inl hst) hlo hhi).mono (by omega)
  | receivingData => exact (canReachStop_of_byteDue hb (.inr hst) hlo hhi).mono (by omega)
  | writingData => exact (canReachStop_of_writing hb hst hlo hhi).mono (by omega)
  | awaitStop => exact absurd hst hstop

end

/-- A transaction in flight is of an existing BusInstance. -/
theorem State.Inv.lt_of_busy {s : State} (hs : s.Inv) {b : BitVec 2} (hbusy : (s.inst b).available = false) :
    b.toNat < s.params.NBUS := by
  by_contra hb
  rw [(hs.absent b (Nat.le_of_not_lt hb)).1] at hbusy
  cases hbusy

/-- With the votes covered, a transaction in flight has a vote to release. -/
theorem State.VotesCover.vote_ne_zero {s : State} (hc : s.VotesCover) {b : BitVec 2}
    (hbusy : (s.inst b).available = false) : s.vote s.params.BUS_ACTIVE_LEVEL ≠ 0 := by
  have hall : ∀ b : BitVec 2, b ∈ ([0, 1, 2, 3] : List (BitVec 2)) := by decide
  have hpos : 0 < s.inFlight := List.length_pos_of_mem (List.mem_filter.mpr ⟨hall b, by simp [hbusy]⟩)
  intro hzero
  rw [State.VotesCover, hzero] at hc
  exact absurd (Nat.lt_of_lt_of_le hpos hc) (by decide)

/-- Settles O18: from every state of a transaction there is a way to `AwaitStop` that leaves the vote, and the stop
follows. -/
theorem everyTransactionCanBeFinished : Obligations.EveryTransactionCanBeFinished := by
  intro s b hs hrun hc hbusy
  have hb := hs.lt_of_busy hbusy
  obtain ⟨evs, buf, actions, hlen, hcarries⟩ := canReachStop hb (hs.insts b) hbusy
  obtain ⟨u, hexec, hinst, _, _, _, hframe⟩ := hcarries s hrun rfl rfl
  have hrunning : u.HALT = false := by rw [hframe]; exact hrun
  have hlast := exec_stop (s := u) (b := b) hrunning (by rw [hframe]; exact hb) (by rw [hinst])
    (by rw [hframe]; exact hc.vote_ne_zero hbusy)
  have hevents : u.EV = s.EV := (congrArg State.EV hframe :)
  refine ⟨evs ++ [SubEvent.stop], (u.wakeUp.finished b).respond .sev true 0, ?_, ?_, hrunning, ?_, ?_⟩
  · rw [List.length_append, List.length_singleton]
    omega
  · rw [List.map_append]
    exact execAll_append.mpr ⟨u, hexec, (execAll_singleton (.subev b .stop) u).trans hlast⟩
  · exact congrArg BusInstance.available (u.wakeUp.finished_inst_same b)
  · show u.EV ||| eventMask (u.inst b).evid = _
    rw [hevents, hinst]

/-! What follows a state without a reset (rule R362 (d)). -/

theorem State.Reaches.trans {s t u : State} (h : s.Reaches t) (h' : t.Reaches u) : s.Reaches u := by
  induction h with
  | here => exact h'
  | input htaken hstep _ ih => exact .input htaken hstep (ih h')
  | delivery b henabled hdeliver _ ih => exact .delivery b henabled hdeliver (ih h')

/-- What is to come of a later state is to come. -/
theorem State.SubEventToCome.of_reaches {s t : State} {b : BitVec 2} (h : s.Reaches t) (ht : t.SubEventToCome b) :
    s.SubEventToCome b := by
  obtain ⟨u, hu, hfaces⟩ := ht
  exact ⟨u, h.trans hu, hfaces⟩

/-- From `x` to `y` nothing is written but the front-end's flags, enables and receive register. -/
def BusInstance.SameTransaction (x y : BusInstance) : Prop :=
  y = { x with IF := y.IF, IEN := y.IEN, RXDATA := y.RXDATA }

theorem BusInstance.SameTransaction.refl (x : BusInstance) : x.SameTransaction x := rfl

theorem BusInstance.SameTransaction.trans {x y z : BusInstance} (h : x.SameTransaction y) (h' : y.SameTransaction z) :
    x.SameTransaction z := by
  unfold BusInstance.SameTransaction at *
  rw [h', h]

theorem BusInstance.SameTransaction.available {x y : BusInstance} (h : x.SameTransaction y) :
    y.available = x.available := (congrArg BusInstance.available h :)

/-- At a closed gate an operation that needs it open is refused, for this or for an earlier check (rule R127). -/
theorem exec_of_gate_closed {i : Instr} {s t : State} {b : BitVec 2} (hgate : gatedBy i = some b)
    (hbusy : (s.inst b).available = false) (h : exec i s = .next t) : ∃ r, t = s.refuse i.port r := by
  have hi : i ≠ .fstat := by
    rintro rfl
    cases hgate
  cases hhalt : s.HALT with
  | true => exact ⟨_, Host.Outcome.next.inj (h.symm.trans (exec_of_halted hi hhalt))⟩
  | false =>
    cases hwf : i.wellFormed s.params with
    | false => exact ⟨_, Host.Outcome.next.inj (h.symm.trans (exec_of_out_of_range hhalt hwf))⟩
    | true => exact ⟨_, Host.Outcome.next.inj (h.symm.trans (exec_of_busy hhalt hwf hgate hbusy))⟩

/-- The operations that write the transaction need the gate open, or are its sub-events. -/
theorem InstEffect.sameTransaction {b : BitVec 2} {x y : BusInstance} {i : Instr} (h : InstEffect b x i y)
    (hgate : gatedBy i ≠ some b) (hsub : ∀ ev, i ≠ .subev b ev) : x.SameTransaction y := by
  cases h with
  | started | buffered => exact absurd rfl hgate
  | moved => exact absurd rfl (hsub _)
  | kept | latched | enabled => rfl

section
variable {s t : State} {b : BitVec 2} (hbusy : (s.inst b).available = false)
include hbusy

/-- In flight, only a sub-event of a running block is an operation on the transaction. -/
theorem exec_sameTransaction {i : Instr} (hsub : ∀ ev, i = .subev b ev → s.HALT = true) (h : exec i s = .next t) :
    (s.inst b).SameTransaction (t.inst b) := by
  by_cases hgate : gatedBy i = some b
  · obtain ⟨r, rfl⟩ := exec_of_gate_closed hgate hbusy h
    exact .refl _
  by_cases hev : ∃ ev, i = .subev b ev
  · obtain ⟨ev, rfl⟩ := hev
    cases h.symm.trans (exec_of_halted (by simp) (hsub ev rfl))
    exact .refl _
  · obtain ⟨u, heff, _, _, _, rfl⟩ := exec_executed h
    exact (heff.inst b).sameTransaction hgate (not_exists.mp hev)

/-- A step that is no reset and no sub-event of the BusInstance leaves the transaction. -/
theorem step_sameTransaction (hfaces : ¬ s.FacesSubEvent b) (hreset : s.taken ≠ some .reset) (h : step s = .next t) :
    (s.inst b).SameTransaction (t.inst b) := by
  rcases step_next h with rfl | ⟨i, rest, htaken, _, htake⟩
  · exact .refl _
  cases i with
  | reset => exact absurd htaken hreset
  | deliver c =>
    by_cases hc : b = c
    · subst hc
      rcases deliver_cases b { s with inputs := rest } with ⟨_, hd⟩ | ⟨kind, hkind, _⟩
      · cases hd.symm.trans htake
        exact .refl _
      · have hkind : deliveryKind b s = some kind := hkind
        exact absurd (.inl (by rw [hkind]; rfl)) hfaces
    · rw [(deliver_other htake hc).1]
      exact .refl _
  | word p w =>
    rcases takeWord_cases p w { s with inputs := rest } with ⟨hw, _⟩ | ⟨i, hdec, rfl, hw⟩
    · cases hw.symm.trans htake
      exact .refl _
    · refine exec_sameTransaction (s := { s with inputs := rest }) hbusy (fun ev hi => ?_) (hw.symm.trans htake)
      subst hi
      by_contra hrun
      exact hfaces (.inr ⟨w, ev, Bool.eq_false_iff.mpr hrun, htaken, hdec⟩)

end

/-- Nothing but a sub-event of its own or a reset moves a transaction in flight. -/
theorem State.Reaches.sameTransaction {s t : State} {b : BitVec 2} (h : s.Reaches t)
    (hbusy : (s.inst b).available = false) (hstuck : ¬ s.SubEventToCome b) :
    (s.inst b).SameTransaction (t.inst b) := by
  induction h with
  | here => exact .refl _
  | @input s t u htaken hstep _ ih =>
    have hfirst := step_sameTransaction hbusy (fun hfaces => hstuck ⟨s, .here, hfaces⟩) htaken hstep
    exact hfirst.trans (ih (hfirst.available.trans hbusy) fun ht =>
      hstuck (ht.of_reaches (.input htaken hstep .here)))
  | @delivery s t u c henabled hdeliver _ ih =>
    have hc : b ≠ c := by
      rintro rfl
      exact hstuck ⟨s, .here, .inl henabled⟩
    have hfirst : (s.inst b).SameTransaction (t.inst b) := by
      rw [(deliver_other hdeliver hc).1]
      exact .refl _
    exact hfirst.trans (ih (hfirst.available.trans hbusy) fun ht =>
      hstuck (ht.of_reaches (.delivery c henabled hdeliver .here)))

/-- Settles O60: what follows moves the transaction by none of its steps, and what is to come later is to come. -/
theorem stuckTransactionsStay : Obligations.StuckTransactionsStay :=
  fun _ _ _ _ hbusy hstuck h => ⟨fun ht => hstuck (ht.of_reaches h), h.sameTransaction hbusy hstuck⟩

end Sys2Proof.Machine
end

section
/-! ### The Event Scheduler (42_event_scheduler.md) -/

namespace Sys2Proof.Machine

/-! The bits of a mask (rules R114, R221, R222). -/

theorem eventMask_getLsbD (e : BitVec 5) (k : Nat) : (eventMask e).getLsbD k = decide (e.toNat = k) := by
  have hone := BitVec.getLsbD_twoPow (w := 32) e.toNat k
  rwa [decide_eq_true e.isLt, Bool.true_and] at hone

theorem getLsbD_post (m : Word) (e : BitVec 5) (k : Nat) :
    (m ||| eventMask e).getLsbD k = (m.getLsbD k || decide (e.toNat = k)) := by
  rw [BitVec.getLsbD_or, eventMask_getLsbD]

theorem getLsbD_clear (m : Word) (e : BitVec 5) (k : Nat) :
    (m &&& ~~~(eventMask e)).getLsbD k = (m.getLsbD k && !decide (e.toNat = k)) := by
  rw [BitVec.getLsbD_and, BitVec.getLsbD_not, eventMask_getLsbD]
  by_cases hk : k < 32
  · simp [hk]
  · simp [BitVec.getLsbD_of_ge m k (by omega)]

/-! The operations once their checks have passed (rules R220 and R127). -/

section
variable {s : State} (hrun : s.HALT = false)
include hrun

theorem execEvpost_passed {e : BitVec 5} (he : e.toNat < s.params.EVW) :
    exec (.evpost e) s = .next ((s.setEV (s.EV ||| eventMask e)).respond .host true 0) :=
  checked_run _ hrun (decide_eq_true he)

theorem execEvclr_passed {e : BitVec 5} (he : e.toNat < s.params.EVW) :
    exec (.evclr e) s = .next ((s.setEV (s.EV &&& ~~~(eventMask e))).respond .host true 0) :=
  checked_run _ hrun (decide_eq_true he)

theorem execEvpend_passed : exec .evpend s = .next (s.respond .host true s.EV) := checked_run _ hrun rfl

end

/-- Settles O48: the mask has its event's bit and no other. -/
theorem evpostSetsItsBit : Obligations.EvpostSetsItsBit := by
  intro s e hrun he
  refine ⟨_, execEvpost_passed hrun he, rfl, ?_, fun k hk => ?_⟩
  · exact (getLsbD_post s.EV e e.toNat).trans (by simp)
  · exact (getLsbD_post s.EV e k).trans (by simp [Ne.symm hk])

/-- Settles O49: the mask's complement lacks its event's bit and no other. -/
theorem evclrClearsItsBit : Obligations.EvclrClearsItsBit := by
  intro s e hrun he
  refine ⟨_, execEvclr_passed hrun he, rfl, ?_, fun k hk => ?_⟩
  · exact (getLsbD_clear s.EV e e.toNat).trans (by simp)
  · exact (getLsbD_clear s.EV e k).trans (by simp [Ne.symm hk])

/-- Settles O50: a running block has no other check for `EVPEND`. -/
theorem evpendAnswersTheMask : Obligations.EvpendAnswersTheMask := fun _ hrun => execEvpend_passed hrun

/-! The drain pass (rules R224 and R229). -/

@[simp] theorem State.respond_lastAnswer (s : State) (p : Port) (ok : Bool) (d : Word) :
    (s.respond p ok d).lastAnswer = ⟨ok, d⟩ := by
  simp [State.lastAnswer, State.respond]

/-- A call of an awake Host to an operation of its port: the operation runs, and the program goes on by the answer. -/
theorem HostProgram.run_call_answered {i : Instr} {next : Response → HostProgram} {s u : State} {ok : Bool} {d : Word}
    (hawake : s.PWR = .awake) (hport : i.port = .host) (hexec : exec i s = .next (u.respond .host ok d)) :
    (HostProgram.call i next).run [] s = (next ⟨ok, d⟩).run [] (u.respond .host ok d) := by
  have htake := (takeWord_of_decode (decode_of_encode_eq rfl) hport s).trans hexec
  rw [HostProgram.run_call (State.isAsleep_eq_false_iff.mpr hawake) htake, State.respond_lastAnswer]

/-- The block runs, the Host is awake, the parameters are `c`. -/
structure State.Serves (c : Params) (u : State) : Prop where
  running : u.HALT = false
  awake : u.PWR = .awake
  params : u.params = c

/-- `P` holds of states that serve a drain pass, its handlers keep `P` and `EV`, and its answered writes of `EV` keep
`P`. -/
structure KeptByDrain (c : Params) (handler : BitVec 5 → HostProgram) (P : State → Prop) : Prop where
  serves : ∀ u, P u → u.Serves c
  handled : ∀ e u, P u → ∃ v, (handler e).run [] u = .next v ∧ P v ∧ v.EV = u.EV
  answered : ∀ u m d, P u → P ((u.setEV m).respond .host true d)

section
variable {c : Params} {handler : BitVec 5 → HostProgram} {P : State → Prop} (hkept : KeptByDrain c handler P)
include hkept

/-- One event serviced: its handler, then its bit cleared, and the pass goes on. -/
theorem KeptByDrain.run_service {e : BitVec 5} (he : e.toNat < c.EVW) {u : State} (hu : P u)
    (next : Response → HostProgram) :
    ∃ t, ((handler e).andThen (.call (.evclr e) next)).run [] u = (next ⟨true, 0⟩).run [] t ∧ P t ∧
      t.EV = u.EV &&& ~~~(eventMask e) := by
  obtain ⟨v, hhandler, hv, hEV⟩ := hkept.handled e u hu
  obtain ⟨hrun, hawake, hparams⟩ := hkept.serves v hv
  have hclear := execEvclr_passed hrun (e := e) (hparams ▸ he)
  refine ⟨_, ?_, hkept.answered v (v.EV &&& ~~~(eventMask e)) 0 hv, by rw [← hEV]; rfl⟩
  simpa only [HostProgram.run_andThen, hhandler] using HostProgram.run_call_answered hawake rfl hclear

/-- The loop clears the events of the snapshot that are among its ids, and no other. -/
theorem KeptByDrain.run_serviceEach (hwidth : c.EVW ≤ 32) (snap : Word) {ids : List Nat} (hids : ∀ e ∈ ids, e < c.EVW)
    {u : State} (hu : P u) :
    ∃ t, (serviceEach handler snap ids).run [] u = .next t ∧ P t ∧
      ∀ k, t.EV.getLsbD k = (u.EV.getLsbD k && !(snap.getLsbD k && decide (k ∈ ids))) := by
  induction ids generalizing u with
  | nil => exact ⟨u, rfl, hu, by simp⟩
  | cons e ids ih =>
    obtain ⟨he, hrest⟩ := List.forall_mem_cons.mp hids
    cases hset : snap.getLsbD e with
    | false =>
      obtain ⟨t, hpass, ht, hbits⟩ := ih hrest hu
      refine ⟨t, by simpa [serviceEach, hset] using hpass, ht, fun k => ?_⟩
      by_cases hk : k = e
      · simp [hbits, hk, hset]
      · simp [hbits, hk]
    | true =>
      have hid : (BitVec.ofNat 5 e).toNat = e := Nat.mod_eq_of_lt (by omega)
      obtain ⟨v, hservice, hv, hEV⟩ := hkept.run_service (hid.symm ▸ he) hu fun _ => serviceEach handler snap ids
      obtain ⟨t, hpass, ht, hbits⟩ := ih hrest hv
      refine ⟨t, by simpa [serviceEach, hset] using hservice.trans hpass, ht, fun k => ?_⟩
      rw [hbits, hEV, getLsbD_clear, hid]
      by_cases hk : k = e
      · simp [hk, hset]
      · simp [hk, Ne.symm hk]

/-- A drain pass from a state with the invariant clears `EV`: every event pending is in the snapshot, and its id is
below `EVW` (rule R31). -/
theorem KeptByDrain.run_drain {s : State} (hs : s.Inv) (hparams : s.params = c) (hsP : P s) :
    ∃ t, (drain c handler).run [] s = .next t ∧ P t ∧ t.EV = 0 := by
  subst hparams
  obtain ⟨hrun, hawake, _⟩ := hkept.serves s hsP
  obtain ⟨_, hwidth, _⟩ := hs.params
  have hsnap : (drain s.params handler).run [] s = (serviceEach handler s.EV (List.range s.params.EVW)).run [] _ :=
    HostProgram.run_call_answered hawake rfl (execEvpend_passed hrun)
  obtain ⟨t, hpass, ht, hbits⟩ :=
    hkept.run_serviceEach hwidth s.EV (fun _ => List.mem_range.mp) (hkept.answered s s.EV s.EV hsP)
  refine ⟨t, hsnap.trans hpass, ht, BitVec.eq_of_getLsbD_eq fun k _ => ?_⟩
  rw [show t.EV.getLsbD k = (s.EV.getLsbD k && _) from hbits k]
  by_cases hk : k < s.params.EVW
  · simp [hk]
  · simp [hs.events k (Nat.le_of_not_lt hk)]

end

/-- `u` is `s` but for `EV` and the responses. -/
def State.SameButEvents (s u : State) : Prop := u = { s with EV := u.EV, resp := u.resp }

theorem State.SameButEvents.serves {s u : State} (h : s.SameButEvents u) (hs : s.Serves s.params) :
    u.Serves s.params := by
  rw [h]
  exact ⟨hs.running, hs.awake, rfl⟩

theorem State.SameButEvents.answered {s u : State} (h : s.SameButEvents u) (m d : Word) :
    s.SameButEvents ((u.setEV m).respond .host true d) := by
  rw [h]
  rfl

/-- Handlers that keep the block running, the Host awake and `EV` keep what a drain pass needs. -/
theorem keptByDrain_serves {c : Params} {handler : BitVec 5 → HostProgram}
    (hhandler : ∀ e u, u.HALT = false → u.PWR = .awake → u.params = c →
      ∃ v, (handler e).run [] u = .next v ∧ v.HALT = false ∧ v.PWR = .awake ∧ v.params = u.params ∧ v.EV = u.EV) :
    KeptByDrain c handler (State.Serves c) where
  serves _ hu := hu
  handled e u hu := by
    obtain ⟨v, hv, hrun, hawake, hparams, hEV⟩ := hhandler e u hu.running hu.awake hu.params
    exact ⟨v, hv, ⟨hrun, hawake, hparams.trans hu.params⟩, hEV⟩
  answered _ _ _ hu := ⟨hu.running, hu.awake, hu.params⟩

/-- With handlers that do nothing a drain pass touches `EV` and the responses alone. -/
theorem keptByDrain_sameButEvents {s : State} (hs : s.Serves s.params) :
    KeptByDrain s.params (fun _ => .done) s.SameButEvents where
  serves _ hu := hu.serves hs
  handled _ u hu := ⟨u, rfl, hu, rfl⟩
  answered _ m d hu := hu.answered m d

/-- Settles O51: a drain pass clears `EV` whatever its handlers and its `EVCLR`s keep, which is that the block serves,
and more when the handlers do nothing. -/
theorem drainPassClearsEveryPendingEvent : Obligations.DrainPassClearsEveryPendingEvent := by
  intro s hs hrun hawake
  have hserves : s.Serves s.params := ⟨hrun, hawake, rfl⟩
  refine ⟨fun handler hhandler => ?_, ?_⟩
  · obtain ⟨t, hpass, ht, hEV⟩ := (keptByDrain_serves hhandler).run_drain hs rfl hserves
    exact ⟨t, hpass, ht.running, hEV⟩
  · obtain ⟨t, hpass, ht, hEV⟩ := (keptByDrain_sameButEvents hserves).run_drain hs rfl rfl
    refine ⟨t, hpass, ?_⟩
    rw [← hEV]
    exact ht

end Sys2Proof.Machine
end

section
/-! ### The front-end and the system operations (43_frontend_system.md) -/

namespace Sys2Proof.Machine

/-! The bits of `IF` and `IEN` (rules R28, R241, R244 and R283). -/

theorem kindBit_lt (k : Kind) : kindBit k < 3 := by cases k <;> decide

theorem Kind.forall_iff {P : Kind → Prop} : (∀ k, P k) ↔ P .ack ∧ P .rx ∧ P .stop :=
  ⟨fun h => ⟨h .ack, h .rx, h .stop⟩, fun ⟨hack, hrx, hstop⟩ k => by cases k <;> assumption⟩

/-- Three flags are their three bits. -/
theorem flags_ext {f g : BitVec 3} (h : ∀ k, f.getLsbD (kindBit k) = g.getLsbD (kindBit k)) : f = g := by
  apply BitVec.eq_of_getLsbD_eq
  intro i hi
  match i with
  | 0 => exact h .ack
  | 1 => exact h .rx
  | 2 => exact h .stop

theorem flagBit_getLsbD (k j : Kind) : (flagBit k).getLsbD (kindBit j) = decide (j = k) := by
  cases k <;> cases j <;> decide

section
variable (x : BusInstance) (k j : Kind)

theorem BusInstance.setFlag_IF_getLsbD :
    (x.setFlag k).IF.getLsbD (kindBit j) = (decide (j = k) || x.IF.getLsbD (kindBit j)) := by
  rw [BusInstance.setFlag, BitVec.getLsbD_or, flagBit_getLsbD, Bool.or_comm]

theorem BusInstance.clearFlag_IF_getLsbD :
    (x.clearFlag k).IF.getLsbD (kindBit j) = (!decide (j = k) && x.IF.getLsbD (kindBit j)) := by
  rw [BusInstance.clearFlag, BitVec.getLsbD_and, BitVec.getLsbD_not, flagBit_getLsbD, decide_eq_true (kindBit_lt j),
    Bool.true_and, Bool.and_comm]

theorem BusInstance.deliverable_getLsbD :
    x.deliverable.getLsbD (kindBit j) = (x.IF.getLsbD (kindBit j) && x.IEN.getLsbD (kindBit j)) :=
  BitVec.getLsbD_and

end

/-- The flags with one bit lowered and the others kept are those `clearFlag` leaves. -/
theorem BusInstance.with_IF_eq_clearFlag {x : BusInstance} {k : Kind} {flags : BitVec 3}
    (hcleared : flags.getLsbD (kindBit k) = false)
    (hkept : ∀ j, j ≠ k → flags.getLsbD (kindBit j) = x.IF.getLsbD (kindBit j)) :
    { x with IF := flags } = x.clearFlag k := by
  have hflags : flags = (x.clearFlag k).IF := flags_ext fun j => by
    rw [x.clearFlag_IF_getLsbD]
    by_cases hj : j = k
    · simp [hj, hcleared]
    · simp [hj, hkept j hj]
  rw [hflags]
  rfl

/-- Latching sets the flag of the sub-event's kind. -/
theorem BusInstance.latch_IF (x : BusInstance) (ev : SubEvent) : (x.latch ev).IF = (x.setFlag ev.kind).IF := by
  cases ev <;> rfl

/-- Only an `RX` brings a byte. -/
theorem BusInstance.latch_RXDATA (x : BusInstance) (ev : SubEvent) :
    (x.latch ev).RXDATA = if ev.kind = .rx then ev.byte else x.RXDATA := by
  cases ev <;> rfl

/-! The kind a delivery step takes (rules R244 and R245). -/

/-- The least kind: its own bit is 1, and that of every kind before it is 0. -/
theorem leastKind_eq_some_iff {flags : BitVec 3} {k : Kind} :
    leastKind flags = some k ↔
      flags.getLsbD (kindBit k) = true ∧ ∀ j, kindBit j < kindBit k → flags.getLsbD (kindBit j) = false := by
  rw [Kind.forall_iff]
  revert flags
  cases k <;> decide

theorem leastKind_eq_none_iff {flags : BitVec 3} : leastKind flags = none ↔ flags = 0 := by
  revert flags
  decide

theorem deliveryKind_of_running {b : BitVec 2} {s : State} (hrun : s.HALT = false) (hb : b.toNat < s.params.NBUS) :
    deliveryKind b s = leastKind (s.inst b).deliverable := by
  simp [deliveryKind, busInRange, hrun, hb]

/-- The three ways in which a delivery step is not enabled. -/
theorem deliveryKind_eq_none_iff {b : BitVec 2} {s : State} :
    deliveryKind b s = none ↔
      s.HALT = true ∨ s.params.NBUS ≤ b.toNat ∨ (s.inst b).IF &&& (s.inst b).IEN = 0 := by
  by_cases hrun : s.HALT = false
  · by_cases hb : b.toNat < s.params.NBUS
    · rw [deliveryKind_of_running hrun hb, leastKind_eq_none_iff]
      simp [hrun, hb, BusInstance.deliverable]
    · simp [deliveryKind, busInRange, hb, Nat.le_of_not_lt hb]
  · simp [deliveryKind, hrun]

/-- The kind delivered is the least of those both pending and enabled. -/
theorem deliveryKind_eq_some {b : BitVec 2} {s : State} {k : Kind} (hrun : s.HALT = false)
    (hb : b.toNat < s.params.NBUS) (hpending : (s.inst b).IF.getLsbD (kindBit k) = true)
    (henabled : (s.inst b).IEN.getLsbD (kindBit k) = true)
    (hleast : ∀ j, kindBit j < kindBit k →
      (s.inst b).IF.getLsbD (kindBit j) = false ∨ (s.inst b).IEN.getLsbD (kindBit j) = false) :
    deliveryKind b s = some k := by
  rw [deliveryKind_of_running hrun hb, leastKind_eq_some_iff]
  refine ⟨?_, fun j hj => ?_⟩
  · rw [BusInstance.deliverable_getLsbD, hpending, henabled, Bool.true_and]
  · rw [BusInstance.deliverable_getLsbD, Bool.and_eq_false_iff]
    exact hleast j hj

/-! The delivery step (rule R244). -/

theorem deliver_of_none {b : BitVec 2} {s : State} (h : deliveryKind b s = none) : deliver b s = .next s := by
  simp [deliver, h]

theorem deliver_of_some {b : BitVec 2} {s : State} {k : Kind} (h : deliveryKind b s = some k) :
    deliver b s = concludeUnanswered (s.delivering b k)
      (handle b (SubEvent.ofKind k (s.inst b).RXDATA) (s.delivering b k)) := by
  simp [deliver, h, dispatchSubEvent, State.delivering]

/-- A delivery step is never held: it is taken where it stands first (rules R129 and R299). -/
theorem step_of_inputs_deliver {s : State} {b : BitVec 2} {rest : List Input} (hin : s.inputs = .deliver b :: rest) :
    step s = deliver b { s with inputs := rest } := step_of_inputs_cons hin rfl

/-- The two ends of a handler that answers nothing itself differ in the response alone. -/
theorem concludeUnanswered_of_conclude {p : Port} {s0 t : State} {r : Handled}
    (hresp : ∀ u, r = .done u → u.resp = s0.resp) (h : conclude p s0 r = .next t) :
    concludeUnanswered s0 r = .next { t with resp := s0.resp } := by
  rcases conclude_next h with ⟨u, rfl, rfl⟩ | ⟨e, rfl, rfl⟩
  · rw [← hresp u rfl]
    rfl
  · rfl

/-- An enabled delivery does what `SUBEV` does in the state with the flag cleared, unanswered. -/
theorem deliver_of_exec_subev {s t : State} {b : BitVec 2} {k : Kind} (hkind : deliveryKind b s = some k)
    (h : exec (.subev b (SubEvent.ofKind k (s.inst b).RXDATA)) (s.setInst b ((s.inst b).clearFlag k)) = .next t) :
    deliver b s = .next { t with resp := s.resp } := by
  obtain ⟨hrun, hb, _⟩ := deliveryKind_some hkind
  have hsubev := execSubev_passed (s := s.setInst b ((s.inst b).clearFlag k))
    (ev := SubEvent.ofKind k (s.inst b).RXDATA) hrun (decide_eq_true hb)
  rw [deliver_of_some hkind]
  refine concludeUnanswered_of_conclude (fun u hu => ?_) (hsubev.symm.trans h)
  obtain ⟨hresp, _⟩ := (handle_done hu).unanswered
  exact hresp

/-- Settles O57: the kind given is the one the step delivers, and the flags given are those it leaves. -/
theorem deliveryPerformsTheLeastPendingSubEvent : Obligations.DeliveryPerformsTheLeastPendingSubEvent := by
  intro s t b k rest flags hin hrun hb hpending henabled hleast hcleared hkept h
  have hkind : deliveryKind b { s with inputs := rest } = some k :=
    deliveryKind_eq_some hrun hb hpending henabled hleast
  rw [BusInstance.with_IF_eq_clearFlag hcleared hkept] at h
  rw [step_of_inputs_deliver hin]
  exact deliver_of_exec_subev hkind h

/-- Settles O58: each of the three leaves no kind to deliver. -/
theorem deliveryNotEnabledDoesNothing : Obligations.DeliveryNotEnabledDoesNothing := by
  intro s b rest hin hdisabled
  rw [step_of_inputs_deliver hin]
  exact deliver_of_none (deliveryKind_eq_none_iff.mpr hdisabled)

/-! The operations once their checks have passed (rules R240 and R127). -/

section
variable {s : State} {b : BitVec 2} (hrun : s.HALT = false) (hb : b.toNat < s.params.NBUS)
include hrun

theorem execWake_passed : exec .wake s = .next (s.wakeUp.respond .env true 0) := checked_run _ hrun rfl

include hb

theorem execIrqraise_passed (ev : SubEvent) :
    exec (.irqraise b ev) s = .next ((s.setInst b ((s.inst b).latch ev)).respond .env true 0) :=
  checked_run _ hrun (decide_eq_true hb)

theorem execIrqen_passed (ien : BitVec 3) :
    exec (.irqen b ien) s = .next ((s.setInst b { s.inst b with IEN := ien }).respond .host true 0) :=
  checked_run _ hrun (decide_eq_true hb)

theorem execIrqstat_passed : exec (.irqstat b) s = .next (s.respond .host true (irqstatWord (s.inst b))) :=
  checked_run _ hrun (decide_eq_true hb)

end

/-- `FSTAT` has no check (rules R127 and R246). -/
theorem exec_fstat (s : State) : exec .fstat s = .next (s.respond .host true (fstatWord s)) := rfl

/-- Settles O52: `IRQRAISE` latches its sub-event. -/
theorem irqraiseSetsItsFlag : Obligations.IrqraiseSetsItsFlag := by
  intro s b ev hrun hb
  have hinst : ((s.setInst b ((s.inst b).latch ev)).respond .env true 0).inst b = (s.inst b).latch ev :=
    s.setInst_inst_same b _
  refine ⟨_, execIrqraise_passed hrun hb ev, rfl, ?_, fun k => ?_, fun c hc => s.setInst_inst_other hc _⟩
  · rw [hinst, ← BusInstance.latch_RXDATA]
    exact BusInstance.latch_eq _ ev
  · rw [hinst, BusInstance.latch_IF, BusInstance.setFlag_IF_getLsbD]

/-- Settles O53: `IRQEN` is one write of the enables. -/
theorem irqenWritesTheEnables : Obligations.IrqenWritesTheEnables := by
  intro s b ien hrun hb
  exact ⟨_, execIrqen_passed hrun hb ien, rfl, s.setInst_inst_same b _, fun c hc => s.setInst_inst_other hc _⟩

/-- Settles O54: `IRQSTAT` answers the word put together from the three registers. -/
theorem irqstatShowsTheFrontEnd : Obligations.IrqstatShowsTheFrontEnd := by
  intro s b hrun hb
  have cut := @extractLsb'_append_cases
  refine ⟨irqstatWord (s.inst b), execIrqstat_passed hrun hb, ?_, ?_, ?_, ?_, ?_⟩ <;> simp [irqstatWord, cut]

/-- Settles O55: `FSTAT` answers the word put together from the fatal status. -/
theorem fstatShowsTheDiagnostic : Obligations.FstatShowsTheDiagnostic := by
  intro s
  have cut := @extractLsb'_append_cases
  have bit := @BitVec.getElem_append
  refine ⟨fstatWord s, exec_fstat s, ?_, ?_, ?_, ?_, ?_⟩
  · simp [fstatWord, bit]
  all_goals simp [fstatWord, cut]

/-- Settles O56: a running block has no other check for `WAKE`. -/
theorem wakeWakesTheHost : Obligations.WakeWakesTheHost := fun _ hrun => execWake_passed hrun

end Sys2Proof.Machine
end

section
/-! ### Fatal errors, the halted block and the sleeping Host (60_exceptions.md) -/

namespace Sys2Proof.Machine

/-! What a handler can raise (rules R141, R142, R163 and R175). -/

theorem block_fatal {l : BitVec 3} {s : State} {e : FatalError} (h : block l s = .fatal e) : e = .voteOverflow l := by
  rcases block_cases l s with ⟨_, hd⟩ | ⟨_, hd⟩ <;> cases hd.symm.trans h
  rfl

theorem unblock_fatal {l : BitVec 3} {s : State} {e : FatalError} (h : unblock l s = .fatal e) :
    e = .voteUnderflow l := by
  rcases unblock_cases l s with ⟨_, hd⟩ | ⟨_, hd⟩ <;> cases hd.symm.trans h
  rfl

theorem startTransaction_fatal {b : BitVec 2} {mode : Mode} {paddr : BitVec 7} {raddr : Byte} {count : BitVec 3}
    {evid : BitVec 5} {s : State} {e : FatalError} (h : startTransaction b mode paddr raddr count evid s = .fatal e) :
    e = .voteOverflow s.params.BUS_ACTIVE_LEVEL := by
  rcases startTransaction_cases b mode paddr raddr count evid s with ⟨_, hd⟩ | ⟨_, hd⟩ <;> cases hd.symm.trans h
  rfl

/-- A data byte that is due raises nothing. -/
theorem withDataByte_ne_fatal (b : BitVec 2) (s : State) (run : BitVec 3 → State) (e : FatalError) :
    withDataByte b s run ≠ .fatal e := by
  intro h
  rcases withDataByte_cases b s run with ⟨_, _, hd⟩ | ⟨_, hd⟩ <;> cases hd.symm.trans h

/-- A handler raises in a fatal cell, or at the end of a transaction that has no vote to release. -/
theorem handle_fatal {b : BitVec 2} {ev : SubEvent} {s : State} {e : FatalError} (h : handle b ev s = .fatal e) :
    e = .unexpectedSubevent b (s.inst b).state ev.kind ∨
      (e = .voteUnderflow s.params.BUS_ACTIVE_LEVEL ∧ (s.inst b).state = .awaitStop ∧ ev = .stop) := by
  rcases handle_cases b ev s with ⟨_, hd⟩ | ⟨_, _, hd⟩ | ⟨_, _, hd⟩ | ⟨_, _, _, hd⟩ | ⟨_, _, hd⟩ | ⟨_, _, _, hd⟩ |
    ⟨hst, hev, hd⟩
  all_goals rw [hd] at h
  · cases h
    exact .inl rfl
  · cases h
  · cases h
  · cases h
  · exact (withDataByte_ne_fatal _ _ _ _ h).elim
  · exact (withDataByte_ne_fatal _ _ _ _ h).elim
  · rcases finishTransaction_cases b s with ⟨_, hf⟩ | ⟨_, hf⟩ <;> cases hf.symm.trans h
    exact .inr ⟨rfl, hst, hev⟩

/-! An operation that halts the block passed its checks, and its handler raised. -/

section
variable {s t : State} (hrun : s.HALT = false) (hhalt : t.HALT = true)
include hrun hhalt

theorem ne_refuse_of_halting (p : Port) (r : Reason) : t ≠ s.refuse p r := by
  rintro rfl
  exact absurd (hhalt.symm.trans hrun) (by decide)

theorem checked_of_halting {p : Port} {r : Bool} {run : Host.Outcome State Fault Refusal}
    (h : checked p r s run = .next t) : run = .next t := by
  have not_refused (reason : Reason) (hc : checked p r s run = .next (s.refuse p reason)) : run = .next t :=
    absurd (Host.Outcome.next.inj (h.symm.trans hc)) (ne_refuse_of_halting hrun hhalt p reason)
  rcases checked_cases p r s run with ⟨_, hc⟩ | ⟨_, _, hc⟩ | ⟨_, _, hc⟩
  · exact not_refused _ hc
  · exact not_refused _ hc
  · exact hc.symm.trans h

theorem unlessBusy_of_halting {b : BitVec 2} {run : Host.Outcome State Fault Refusal}
    (h : unlessBusy b s run = .next t) : run = .next t := by
  rcases unlessBusy_cases b s run with ⟨_, hc⟩ | ⟨_, hc⟩
  · exact absurd (Host.Outcome.next.inj (h.symm.trans hc)) (ne_refuse_of_halting hrun hhalt .host .busy)
  · exact hc.symm.trans h

theorem conclude_of_halting {p : Port} {s0 : State} {r : Handled} (hdone : ∀ u, r = .done u → s.Unanswered u)
    (h : conclude p s0 r = .next t) : ∃ e, r = .fatal e ∧ t.FCODE = e.code := by
  rcases conclude_next h with ⟨u, hu, rfl⟩ | ⟨e, he, rfl⟩
  · obtain ⟨_, hkept⟩ := hdone u hu
    exact absurd (hhalt.symm.trans (hkept.trans hrun)) (by decide)
  · exact ⟨e, he, rfl⟩

/-! The code each of the four operations sets (rule R274). -/

theorem exec_emblk_code {l : BitVec 3} (h : exec (.emblk l) s = .next t) : t.FCODE = 3 := by
  obtain ⟨e, he, hcode⟩ :=
    conclude_of_halting hrun hhalt (fun _ => block_unanswered) (checked_of_halting hrun hhalt h)
  rw [hcode, block_fatal he]
  rfl

theorem exec_emunblk_code {l : BitVec 3} (h : exec (.emunblk l) s = .next t) : t.FCODE = 2 := by
  obtain ⟨e, he, hcode⟩ :=
    conclude_of_halting hrun hhalt (fun _ => unblock_unanswered) (checked_of_halting hrun hhalt h)
  rw [hcode, unblock_fatal he]
  rfl

theorem exec_xstart_code {b : BitVec 2} {mode : Mode} {paddr : BitVec 7} {raddr : Byte} {count : BitVec 3}
    {evid : BitVec 5} (h : exec (.xstart b mode paddr raddr count evid) s = .next t) : t.FCODE = 3 := by
  obtain ⟨e, he, hcode⟩ := conclude_of_halting hrun hhalt (fun _ => startTransaction_unanswered)
    (unlessBusy_of_halting hrun hhalt (checked_of_halting hrun hhalt h))
  rw [hcode, startTransaction_fatal he]
  rfl

theorem exec_subev_code {b : BitVec 2} {ev : SubEvent} (h : exec (.subev b ev) s = .next t) :
    t.FCODE = 1 ∨ (t.FCODE = 2 ∧ (s.inst b).state = .awaitStop ∧ ev = .stop) := by
  obtain ⟨e, he, hcode⟩ := conclude_of_halting (s := s.wakeUp) hrun hhalt (fun _ hu => (handle_done hu).unanswered)
    (checked_of_halting hrun hhalt h)
  rcases handle_fatal he with rfl | ⟨rfl, hst, hev⟩
  · exact .inl hcode
  · exact .inr ⟨hcode, hst, hev⟩

end

/-- Settles O20: only the four operations with a handler that can raise change the fatal status, each by its own
code. -/
theorem onlyTheListedOperationsRaise : Obligations.OnlyTheListedOperationsRaise := by
  intro i s t hrun h hchanged
  obtain ⟨u, heff, p, ok, d, ht⟩ := exec_executed h
  rcases heff.fatalStatus with hsame | ⟨_, hhalt, hi⟩
  · subst ht
    have halt_changed (hu : u.HALT = true) : u.HALT ≠ s.HALT := by simp [hu, hrun]
    exact (hsame.false_of_ne (hchanged.imp halt_changed (.imp_right .inl))).elim
  · have hhalt : t.HALT = true := ht ▸ hhalt
    refine ⟨hhalt, ?_⟩
    rcases hi with ⟨b, mode, paddr, raddr, count, evid, rfl⟩ | ⟨b, ev, rfl⟩ | ⟨l, rfl⟩ | ⟨l, rfl⟩
    · exact .inr (.inr (.inl ⟨⟨_, _, _, _, _, _, rfl⟩, exec_xstart_code hrun hhalt h⟩))
    · exact .inr (.inr (.inr ⟨b, ev, rfl, exec_subev_code hrun hhalt h⟩))
    · exact .inl ⟨⟨l, rfl⟩, exec_emblk_code hrun hhalt h⟩
    · exact .inr (.inl ⟨⟨l, rfl⟩, exec_emunblk_code hrun hhalt h⟩)

/-! A halted block (rule R273). -/

/-- What a halted block answers to a word on a port: the diagnostic to `FSTAT`, `HALTED` to any other. -/
def State.haltedAnswer (s : State) (p : Port) (w : Word) : Response :=
  if p = .host ∧ w = 0xE0000000 then ⟨true, fstatWord s⟩ else ⟨false, 4⟩

section
variable {s : State} (hhalt : s.HALT = true)
include hhalt

theorem takeWord_eq_haltedAnswer (p : Port) (w : Word) :
    takeWord p w s = .next { s with resp := s.resp ++ [(p, s.haltedAnswer p w)] } := by
  by_cases hw : p = .host ∧ w = 0xE0000000
  · rw [State.haltedAnswer, if_pos hw]
    obtain ⟨rfl, rfl⟩ := hw
    exact takeWord_of_decode (decode_eq_fstat_iff.mpr rfl) rfl s
  · rw [State.haltedAnswer, if_neg hw]
    exact takeWord_of_halted hhalt hw

theorem deliver_of_halted (b : BitVec 2) : deliver b s = .next s :=
  deliver_of_none (deliveryKind_eq_none_iff.mpr (.inl hhalt))

end

/-- Settles O21: a wait, a delivery that is not enabled, and a word that is answered and not executed. -/
theorem haltedBlockNeverChanges : Obligations.HaltedBlockNeverChanges := by
  intro s t hhalt h hreset
  rcases step_cases s with ⟨hnext, hstep⟩ | ⟨i, rest, hnext, hstep⟩
  · have htaken : s.taken = none := by rw [State.taken, hnext]; rfl
    cases hstep.symm.trans h
    exact ⟨rfl, fun p w hw => absurd (htaken.symm.trans hw) (by simp), fun _ => rfl⟩
  have htaken : s.taken = some i := by rw [State.taken, hnext]; rfl
  have htake : takeInput i { s with inputs := rest } = .next t := hstep.symm.trans h
  cases i with
  | reset => exact absurd htaken hreset
  | deliver b =>
    cases (deliver_of_halted (s := { s with inputs := rest }) hhalt b).symm.trans htake
    exact ⟨rfl, fun p w hw => absurd (htaken.symm.trans hw) (by simp), fun _ => rfl⟩
  | word p w =>
    cases (takeWord_eq_haltedAnswer (s := { s with inputs := rest }) hhalt p w).symm.trans htake
    refine ⟨rfl, fun p' w' hw => ?_, fun hw => absurd htaken (hw p w)⟩
    cases htaken.symm.trans hw
    rfl

/-! A sleeping Host (rules R299 and R300). -/

/-- `WAKE` has one word. -/
theorem eq_of_decode_wake {w : Word} (h : decode w = .ok .wake) : w = 0xE1000000 :=
  (encode_eq_iff.mpr (fits_of_decode h)).symm

/-- A delivery that wakes the Host is enabled. -/
theorem deliveryKind_isSome_of_power_ne {b : BitVec 2} {s t : State} (h : deliver b s = .next t) (hne : t.PWR ≠ s.PWR) :
    (deliveryKind b s).isSome = true := by
  rcases deliver_cases b s with ⟨_, hd⟩ | ⟨kind, hkind, _⟩
  · cases hd.symm.trans h
    exact absurd rfl hne
  · rw [hkind]
    rfl

/-- A word that is not the Host's and changes `PWR` is a `SUBEV` or a `WAKE`. -/
theorem decode_of_takeWord_power_ne {p : Port} {w : Word} {s t : State} (h : takeWord p w s = .next t)
    (hp : p ≠ .host) (hne : t.PWR ≠ s.PWR) :
    (p = .sev ∧ ∃ b ev, decode w = .ok (.subev b ev)) ∨ (p = .env ∧ decode w = .ok .wake) := by
  rcases takeWord_next h with ⟨_, _, _, rfl⟩ | ⟨i, hdec, rfl, u, heff, _, _, _, rfl⟩
  · exact absurd rfl hne
  rcases heff.power with hkept | ⟨b, ev, rfl⟩ | rfl | rfl
  · exact absurd hkept hne
  · exact .inl ⟨rfl, b, ev, hdec⟩
  · exact absurd rfl hp
  · exact .inr ⟨rfl, hdec⟩

/-- Settles O22: of the inputs a sleeping Host leaves to be taken, those that change `PWR`. -/
theorem onlyDeliveryAndWakeWakeTheHost : Obligations.OnlyDeliveryAndWakeWakeTheHost := by
  intro s t l hasleep h hawake
  have hne : t.PWR ≠ s.PWR := by simp [hasleep, hawake]
  rcases step_next h with rfl | ⟨i, rest, htaken, hheld, htake⟩
  · exact absurd rfl hne
  cases i with
  | reset => exact .inl htaken
  | deliver b =>
    exact .inr (.inl ⟨b, htaken, deliveryKind_isSome_of_power_ne (s := { s with inputs := rest }) htake hne⟩)
  | word p w =>
    have hp : p ≠ .host := fun hhost => by
      have hpwr := State.isAsleep_eq_false_iff.mp (Input.held_word_eq_false_iff.mp hheld hhost)
      cases hasleep.symm.trans hpwr
    rcases decode_of_takeWord_power_ne (s := { s with inputs := rest }) htake hp hne with
      ⟨rfl, b, ev, hdec⟩ | ⟨rfl, hdec⟩
    · exact .inr (.inr (.inr ⟨w, b, ev, htaken, hdec⟩))
    · rw [eq_of_decode_wake hdec] at htaken
      exact .inr (.inr (.inl htaken))

end Sys2Proof.Machine
end

section
/-! ### Reset and the end of a run (70_reset_and_hazards.md) -/

namespace Sys2Proof.Machine

/-! From the invariant nothing stops the block (rules R38 and R362): its one fault, a data byte due outside the count,
is out of reach. -/

/-- An outcome that is a next state: no fault, and no refusal of a meaning. -/
def GoesOn (outcome : Host.Outcome State Fault Refusal) : Prop := ∃ t, outcome = .next t

/-- A handler that came to a result or to a fatal error, not to a state no rule speaks of. -/
def Handled.NotBroken (r : Handled) : Prop := ∀ f, r ≠ .broken f

theorem Handled.NotBroken.done (s : State) : (Handled.done s).NotBroken := nofun

theorem Handled.NotBroken.fatal (e : FatalError) : (Handled.fatal e).NotBroken := nofun

theorem block_notBroken (l : BitVec 3) (s : State) : (block l s).NotBroken := by
  rcases block_cases l s with ⟨_, hd⟩ | ⟨_, hd⟩ <;> rw [hd]
  · exact .done _
  · exact .fatal _

theorem unblock_notBroken (l : BitVec 3) (s : State) : (unblock l s).NotBroken := by
  rcases unblock_cases l s with ⟨_, hd⟩ | ⟨_, hd⟩ <;> rw [hd]
  · exact .fatal _
  · exact .done _

theorem startTransaction_notBroken (b : BitVec 2) (mode : Mode) (paddr : BitVec 7) (raddr : Byte) (count : BitVec 3)
    (evid : BitVec 5) (s : State) : (startTransaction b mode paddr raddr count evid s).NotBroken := by
  rcases startTransaction_cases b mode paddr raddr count evid s with ⟨_, hd⟩ | ⟨_, hd⟩ <;> rw [hd]
  · exact .done _
  · exact .fatal _

theorem finishTransaction_notBroken (b : BitVec 2) (s : State) : (finishTransaction b s).NotBroken := by
  rcases finishTransaction_cases b s with ⟨_, hd⟩ | ⟨_, hd⟩ <;> rw [hd]
  · exact .fatal _
  · exact .done _

/-- A data byte is due within the count: the first sentence of rule R38. -/
theorem withDataByte_notBroken {b : BitVec 2} {s : State} (hx : (s.inst b).Inv s.params)
    (hdata : (s.inst b).state.DataToCome) (run : BitVec 3 → State) : (withDataByte b s run).NotBroken := by
  rcases withDataByte_cases b s run with ⟨_, _, hd⟩ | ⟨hcount, _⟩
  · rw [hd]
    exact .done _
  · exact absurd (hx.count hdata) hcount

/-- Every cell of the transition table says what to do. -/
theorem handle_notBroken {b : BitVec 2} {s : State} (hx : (s.inst b).Inv s.params) (ev : SubEvent) :
    (handle b ev s).NotBroken := by
  rcases handle_cases b ev s with ⟨_, hd⟩ | ⟨_, _, hd⟩ | ⟨_, _, hd⟩ | ⟨_, _, _, hd⟩ | ⟨hst, _, hd⟩ | ⟨hst, _, _, hd⟩ |
    ⟨_, _, hd⟩ <;> rw [hd]
  · exact .fatal _
  · exact .done _
  · exact .done _
  · exact .done _
  · exact withDataByte_notBroken hx (by simp [BtsmState.DataToCome, hst]) _
  · exact withDataByte_notBroken hx (by rcases hst with hst | hst <;> simp [BtsmState.DataToCome, hst]) _
  · exact finishTransaction_notBroken b s

theorem accept_goesOn (p : Port) (d : Word) (s : State) : GoesOn (accept p d s) := ⟨_, rfl⟩

theorem conclude_goesOn (p : Port) (s0 : State) {r : Handled} (hr : r.NotBroken) : GoesOn (conclude p s0 r) := by
  cases r with
  | done | fatal => exact ⟨_, rfl⟩
  | broken f => exact absurd rfl (hr f)

theorem concludeUnanswered_goesOn (s0 : State) {r : Handled} (hr : r.NotBroken) : GoesOn (concludeUnanswered s0 r) := by
  cases r with
  | done | fatal => exact ⟨_, rfl⟩
  | broken f => exact absurd rfl (hr f)

section
variable {s : State} {run : Host.Outcome State Fault Refusal} (hrun : GoesOn run)
include hrun

theorem checked_goesOn (p : Port) (r : Bool) : GoesOn (checked p r s run) := by
  rcases checked_cases p r s run with ⟨_, hc⟩ | ⟨_, _, hc⟩ | ⟨_, _, hc⟩ <;> rw [hc]
  · exact ⟨_, rfl⟩
  · exact ⟨_, rfl⟩
  · exact hrun

theorem unlessBusy_goesOn (b : BitVec 2) : GoesOn (unlessBusy b s run) := by
  rcases unlessBusy_cases b s run with ⟨_, hc⟩ | ⟨_, hc⟩ <;> rw [hc]
  · exact ⟨_, rfl⟩
  · exact hrun

end

section
variable {s : State} (hs : s.Inv)
include hs

/-- Of the operations, only a `SUBEV` needs the invariant. -/
theorem exec_goesOn (i : Instr) : GoesOn (exec i s) := by
  cases i with
  | xstart b mode paddr raddr count evid =>
    have hstart := startTransaction_notBroken b mode paddr raddr count evid s
    exact checked_goesOn (unlessBusy_goesOn (conclude_goesOn _ _ hstart) _) ..
  | emblk l => exact checked_goesOn (conclude_goesOn _ _ (block_notBroken l s)) ..
  | emunblk l => exact checked_goesOn (conclude_goesOn _ _ (unblock_notBroken l s)) ..
  | subev b ev => exact checked_goesOn (conclude_goesOn _ _ (handle_notBroken (hs.wakeUp.insts b) ev)) ..
  | bufwr b lane byte => exact checked_goesOn (unlessBusy_goesOn (accept_goesOn ..) _) ..
  | bufrd b =>
    refine checked_goesOn ?_ ..
    split <;> exact accept_goesOn ..
  | fstat => exact accept_goesOn ..
  | xstat | evpost | evclr | evpend | emcda | emsleep | irqraise | irqen | irqstat | wake =>
    exact checked_goesOn (accept_goesOn ..) ..

theorem takeWord_goesOn (p : Port) (w : Word) : GoesOn (takeWord p w s) := by
  rcases takeWord_cases p w s with ⟨hw, _⟩ | ⟨i, _, _, hw⟩ <;> rw [hw]
  · exact ⟨_, rfl⟩
  · exact exec_goesOn hs i

/-- The flag a delivery lowers is no part of what its handler needs. -/
theorem deliver_goesOn (b : BitVec 2) : GoesOn (deliver b s) := by
  cases hkind : deliveryKind b s with
  | none => exact ⟨s, deliver_of_none hkind⟩
  | some k =>
    obtain ⟨_, hb, _⟩ := deliveryKind_some hkind
    rw [deliver_of_some hkind]
    exact concludeUnanswered_goesOn _ (handle_notBroken ((hs.delivering hb k).insts b) _)

theorem takeInput_goesOn (i : Input) : GoesOn (takeInput i s) := by
  cases i with
  | word p w => exact takeWord_goesOn hs p w
  | deliver b => exact deliver_goesOn hs b
  | reset => exact ⟨_, rfl⟩

end

/-- Settles O14: a wait goes on, and so does every input from the invariant. -/
theorem everyStepGoesOnFromInv : Obligations.EveryStepGoesOnFromInv := by
  intro s hs
  rcases step_cases s with ⟨_, hstep⟩ | ⟨i, rest, _, hstep⟩
  · exact ⟨s, hstep⟩
  · rw [hstep]
    exact takeInput_goesOn (hs.withInputs rest) i

/-! Quiescence (rule R362 a). -/

/-- An enabled delivery leaves the flag of the kind it delivered lowered, fatal or not. -/
theorem deliver_IF {b : BitVec 2} {s t : State} {k : Kind} (hkind : deliveryKind b s = some k)
    (h : deliver b s = .next t) : (t.inst b).IF = ((s.inst b).clearFlag k).IF := by
  rw [deliver_of_some hkind] at h
  rcases concludeUnanswered_next h with hdone | ⟨e, _, rfl⟩
  · obtain ⟨_, _, _, _, hinst, _⟩ := (handle_done hdone).same
    rw [hinst, State.delivering_inst_same]
  · rw [State.raiseFatal_inst, State.delivering_inst_same]

/-- The kind delivered is pending. -/
theorem deliveryKind_pending {b : BitVec 2} {s : State} {k : Kind} (h : deliveryKind b s = some k) :
    (s.inst b).IF.getLsbD (kindBit k) = true := by
  obtain ⟨_, _, hleast⟩ := deliveryKind_some h
  obtain ⟨hbit, _⟩ := leastKind_eq_some_iff.mp hleast
  rw [BusInstance.deliverable_getLsbD] at hbit
  exact Bool.and_elim_left hbit

/-- A delivery step does nothing exactly when it is not enabled: an enabled one lowers a flag that was up. -/
theorem deliver_eq_self_iff {b : BitVec 2} {s : State} : deliver b s = .next s ↔ deliveryKind b s = none := by
  refine ⟨fun h => ?_, deliver_of_none⟩
  by_contra hsome
  obtain ⟨k, hkind⟩ := Option.ne_none_iff_exists'.mp hsome
  have hup := deliveryKind_pending hkind
  rw [deliver_IF hkind h, BusInstance.clearFlag_IF_getLsbD] at hup
  simp at hup

theorem not_deliveryEnabled_iff {s : State} : ¬ s.DeliveryEnabled ↔ ∀ b, deliveryKind b s = none := by
  simp [State.DeliveryEnabled]

/-- In a running block, no delivery step is enabled exactly when none of the existing instances has a flag both
pending and enabled. -/
theorem not_deliveryEnabled_iff_flags {s : State} (hrun : s.HALT = false) :
    ¬ s.DeliveryEnabled ↔ ∀ b : BitVec 2, b.toNat < s.params.NBUS → (s.inst b).IF &&& (s.inst b).IEN = 0 := by
  rw [not_deliveryEnabled_iff]
  refine forall_congr' fun b => ?_
  rw [deliveryKind_eq_none_iff, ← Nat.not_lt, ← imp_iff_not_or]
  simp [hrun]

/-- A step whose one input is a delivery does nothing else exactly when the delivery is not enabled. -/
theorem step_deliver_eq_self_iff {s : State} {b : BitVec 2} :
    step { s with inputs := [.deliver b] } = .next { s with inputs := [] } ↔ deliveryKind b s = none := by
  rw [step_of_inputs_deliver rfl]
  exact deliver_eq_self_iff

/-- Settles O59: the third condition of `State.Quiescent`, in terms of the flags and of the delivery steps. -/
theorem quiescentMeansNoEnabledFlag : Obligations.QuiescentMeansNoEnabledFlag := by
  intro s
  refine ⟨?_, fun hrun hidle => ?_⟩
  · exact and_congr_right fun hrun => and_congr_right fun _ => not_deliveryEnabled_iff_flags hrun
  · calc s.Quiescent ↔ ¬ s.DeliveryEnabled := ⟨fun ⟨_, _, hquiet⟩ => hquiet, fun hquiet => ⟨hrun, hidle, hquiet⟩⟩
      _ ↔ ∀ b, deliveryKind b s = none := not_deliveryEnabled_iff
      _ ↔ _ := forall_congr' fun _ => step_deliver_eq_self_iff.symm

/-! Reset (rules R320 and R323). -/

/-- Settles O11: a reset is never held, and it is `State.applyReset`. -/
theorem resetStepRestoresEveryItem : Obligations.ResetStepRestoresEveryItem := by
  intro s rest hin
  have hstep : step s = .next { s with inputs := rest }.applyReset := step_of_inputs_cons hin rfl
  exact ⟨_, hstep, rfl, State.applyReset_inst _, State.applyReset_vote _⟩

end Sys2Proof.Machine
end
